-- ==== Sys2Proof/Word.lean ====
section
/-! DEFINITION. The words of the machine: a byte of a stream or of the frame buffer. A millisecond count (the `now`
input, every timestamp) is a number, since its width `CLOCK_W` is a parameter of the instance (R5, D13): a tick reads `now`
modulo `2^CLOCK_W`, and differences wrap at `2^CLOCK_W` (R9, R46; log 1). -/
namespace Sys2Proof

/-- A byte is 8 bits, bit 0 the least significant (R8). -/
abbrev Byte := BitVec 8

end Sys2Proof
end

