-- ==== Sys2Proof/Config.lean ====
section
/-! DEFINITION. The implementation parameters of R5, the input ports of R42 as one record, and the free inputs of the
environment. -/
namespace Sys2Proof

/-- `BUF_CAP`: capacity of the frame buffer in bytes (R5). -/
abbrev bufCap : Nat := 40

/-- `ENVELOPE`: header 4 + length field 2 + trailer 4 bytes (R5). -/
abbrev envelope : Nat := 10

/-- `MIN_CHECK_LEN`: the smallest `buf_len` at which the markers are compared (R5). -/
abbrev minCheckLen : Nat := 8

/-- `N_GATES`: entries of each sensitivity array (R5). -/
abbrev nGates : Nat := 9

/-- The argument bytes there is room for: `req_args` is 18 bytes (R42), `tgt_args` eighteen registers (R37). -/
abbrev argSlots : Nat := 18

/-- The bytes of `tx_bytes` (R42): the longest frame sent, `12 + 18` (R195). -/
abbrev txMax : Nat := 30

/-- A value of `ARGS_MAX`: no more than the ports and registers hold (R37, R42; log 2). -/
abbrev ArgsMax := { n : Nat // n ≤ argSlots }

/-- The value of R5, which is as many as there is room for. -/
def ArgsMax.all : ArgsMax := ⟨argSlots, Nat.le_refl argSlots⟩

/-- The parameters of R5 that this spec decides or leaves to the instance, fixed for its life (R39). A value outside the
legal range of R5 and R256(g) cannot be written (D28; log 2). `STALE_WINDOW_MS` is OPEN and is an argument of the
`connected` output instead, with its own legal range in `StaleWindow` (log 3). -/
structure Config where
  /-- `CLOCK_W`: width in bits of the millisecond clock and of every timestamp (D13). -/
  clockW : Nat
  /-- `ARGS_MAX`: the largest number of argument bytes a request may carry (D19). -/
  argsMax : ArgsMax
  /-- `ACK_TIMEOUT_MS`. -/
  ackTimeoutMs : Nat
  /-- `QCFG_BASE`: buffer offset of the first decoded byte of a query-configuration ack. -/
  qcfgBase : { b : Nat // 10 ≤ b ∧ b ≤ 11 }
  /-- `FWV_BASE`: buffer offset of the first decoded byte of a firmware-version ack. -/
  fwvBase : { b : Nat // 10 ≤ b ∧ b ≤ 12 }
  /-- `ENTER_ARGS`: argument bytes of the enter-configuration-mode command the core sends. -/
  enterArgs : List Byte
  /-- `LEAVE_ARGS`: argument bytes of the leave-configuration-mode command the core sends. -/
  leaveArgs : List Byte
  /-- The timeout is a value of the clock. -/
  ackTimeoutMs_lt : ackTimeoutMs < 2 ^ clockW
  /-- The enter command carries no more arguments than a request may. -/
  enterArgs_le : enterArgs.length ≤ argsMax.val
  /-- The leave command carries no more arguments than a request may. -/
  leaveArgs_le : leaveArgs.length ≤ argsMax.val
  deriving DecidableEq, Repr

/-- The default values of R5. `QCFG_BASE`, `FWV_BASE` and `ENTER_ARGS` are from general knowledge by the spec's own mark
(G1 to G3; log 2). -/
def Config.default : Config where
  clockW := 32
  argsMax := ArgsMax.all
  ackTimeoutMs := 100
  qcfgBase := ⟨11, by decide⟩
  fwvBase := ⟨12, by decide⟩
  enterArgs := [0x01, 0x00]
  leaveArgs := []
  ackTimeoutMs_lt := by decide
  enterArgs_le := by decide
  leaveArgs_le := by decide

/-- A value of the OPEN parameter `STALE_WINDOW_MS` for an instance: less than `2^CLOCK_W` (R5, R256(e)). A value outside
that range cannot be written (D28; log 3). -/
abbrev StaleWindow (cfg : Config) := { ms : Nat // ms < 2 ^ cfg.clockW }

/-- What the environment presents at one tick: the input ports of R42, with the bytes the sensor appends to `RX` before
the tick's operation (R44; log 5). -/
structure TickInput where
  /-- `rst`, synchronous reset (R43). -/
  rst : Bool
  /-- The millisecond clock at this tick; the port `now` holds its lowest `CLOCK_W` bits (R46). -/
  now : Nat
  /-- Bytes the sensor appended to `RX` since the last tick, oldest first (R44). -/
  arrivals : List Byte
  /-- `poll` (R48). -/
  poll : Bool
  /-- `req_valid` (R47). -/
  reqValid : Bool
  /-- `req_code` (R42). -/
  reqCode : Byte
  /-- `req_nargs`, 5 bits (R42). -/
  reqNargs : BitVec 5
  /-- `req_args`, 18 bytes, byte 0 first (R42). -/
  reqArgs : Vector Byte argSlots
  deriving DecidableEq, Repr, Inhabited

/-- The environment's moves are free inputs (R6): what it presents at the tick of the given number when the state's list of
coming inputs is empty. A free value without a body: no proof can see what it is (log 4). -/
opaque Config.freeTick : Nat → TickInput

end Sys2Proof
end

