-- ==== Sys2Proof/Syntax.lean ====
section
/-! DEFINITION. The instructions of opcode_table.json, one constructor a row, in the table's five formats (R99), with the
named values the rows are told apart by. -/
namespace Sys2Proof

/-- `sync_state` (R21). -/
inductive SyncState where
  | idle | accum
  deriving DecidableEq, Repr

/-- `buf_class`, the classification tag of a frame (R24). -/
inductive FrameClass where
  | data | cmd
  deriving DecidableEq, Repr

/-- `txn_state` (R34). Encodings 5 to 7 are never reached and cannot be written (log 9). -/
inductive TxnState where
  | idle | sent | ackedSuccess | ackedFailure | timedOut
  deriving DecidableEq, Repr

/-- `txn_stage` (R35). Encoding 3 is never reached and cannot be written (log 9). -/
inductive Stage where
  | enter | target | leave
  deriving DecidableEq, Repr

/-- A stage outcome, the type of `res_enter`, `res_target` and `res_leave` (R38). -/
inductive StageOutcome where
  | none | success | failure | timeout
  deriving DecidableEq, Repr

/-- The five formats of opcode_table.json (R99). -/
inductive Format where
  | b | df | cf | tf | h
  deriving DecidableEq, Repr

/-- The ten command codes (R94, R95): the code a command carries and its ack echoes. -/
inductive Cmd where
  | enterCfg | leaveCfg | setMaxGate | queryCfg | engStart | engStop | setSens | fwVersion | factoryReset | restart
  deriving DecidableEq, Repr

/-- Format B: what a synchronizer step does with the byte it consumes (R110). -/
inductive ByteOp where
  | idleSkip (b : Byte) | sofData | sofCmd | append (b : Byte) | overrun (b : Byte)
  deriving DecidableEq, Repr

/-- Format DF: a complete data frame that passed the length check (R93). -/
inductive DataFrame where
  /-- The payload after the tag `01 AA`. -/
  | eng (rest : List Byte)
  /-- The fields of R87 in payload order; `unassigned` is offset 16. -/
  | normal (tgtType : Byte) (movDist : BitVec 16) (movEnergy : Byte) (staDist : BitVec 16) (staEnergy detDist unassigned : Byte)
  /-- The whole payload. -/
  | unknown (payload : List Byte)
  deriving DecidableEq, Repr

/-- Format CF: a complete ack frame that passed the length check (R94). `codeHi` is offset 7, `status` offsets 8 and 9
(little-endian), `result` the payload from offset 10. -/
inductive AckFrame where
  | enterCfg (codeHi : Byte) (status : BitVec 16) (result : Vector Byte 4)
  | leaveCfg (codeHi : Byte) (status : BitVec 16)
  | setMaxGate (codeHi : Byte) (status : BitVec 16)
  | queryCfg (codeHi : Byte) (status : BitVec 16) (result : Vector Byte 24)
  | setSens (codeHi : Byte) (status : BitVec 16)
  | fwVersion (codeHi : Byte) (status : BitVec 16) (result : Vector Byte 8)
  | factoryReset (codeHi : Byte) (status : BitVec 16)
  | restart (codeHi : Byte) (status : BitVec 16)
  | engStart (codeHi : Byte) (status : BitVec 16)
  | engStop (codeHi : Byte) (status : BitVec 16)
  /-- The whole payload. -/
  | unknown (payload : List Byte)
  deriving DecidableEq, Repr

/-- Format H: the operation of a tick (R240). The operands of REQ_ACCEPT are the request port. -/
inductive TickOp where
  | reset
  | reqAccept (code : Byte) (nargs : BitVec 5) (args : Vector Byte argSlots)
  | poll | nop | waitTick | stageAdvance
  deriving DecidableEq, Repr

/-- The instructions: one constructor per row of opcode_table.json, in the table's order. -/
inductive Instr where
  | idleSkip (b : Byte)
  | sofData
  | sofCmd
  | append (b : Byte)
  | overrun (b : Byte)
  | dataEng (rest : List Byte)
  | dataNormal (tgtType : Byte) (movDist : BitVec 16) (movEnergy : Byte) (staDist : BitVec 16) (staEnergy detDist unassigned : Byte)
  | dataUnknown (payload : List Byte)
  | ackEnterCfg (codeHi : Byte) (status : BitVec 16) (result : Vector Byte 4)
  | ackLeaveCfg (codeHi : Byte) (status : BitVec 16)
  | ackSetMaxGate (codeHi : Byte) (status : BitVec 16)
  | ackQueryCfg (codeHi : Byte) (status : BitVec 16) (result : Vector Byte 24)
  | ackSetSens (codeHi : Byte) (status : BitVec 16)
  | ackFwVersion (codeHi : Byte) (status : BitVec 16) (result : Vector Byte 8)
  | ackFactoryReset (codeHi : Byte) (status : BitVec 16)
  | ackRestart (codeHi : Byte) (status : BitVec 16)
  | ackEngStart (codeHi : Byte) (status : BitVec 16)
  | ackEngStop (codeHi : Byte) (status : BitVec 16)
  | ackUnknown (payload : List Byte)
  | cmdEnterCfg (args : List Byte)
  | cmdLeaveCfg (args : List Byte)
  | cmdSetMaxGate (args : List Byte)
  | cmdQueryCfg (args : List Byte)
  | cmdEngStart (args : List Byte)
  | cmdEngStop (args : List Byte)
  | cmdSetSens (args : List Byte)
  | cmdFwVersion (args : List Byte)
  | cmdFactoryReset (args : List Byte)
  | cmdRestart (args : List Byte)
  | reset
  | reqAccept (code : Byte) (nargs : BitVec 5) (args : Vector Byte argSlots)
  | poll
  | nop
  | waitTick
  | stageAdvance
  deriving DecidableEq, Repr

/-- The row of a synchronizer step's case. -/
def ByteOp.toInstr : ByteOp → Instr
  | .idleSkip b => .idleSkip b
  | .sofData => .sofData
  | .sofCmd => .sofCmd
  | .append b => .append b
  | .overrun b => .overrun b

/-- The row of a data frame. -/
def DataFrame.toInstr : DataFrame → Instr
  | .eng rest => .dataEng rest
  | .normal tt md me sd se dd u => .dataNormal tt md me sd se dd u
  | .unknown p => .dataUnknown p

/-- The row of an ack frame. -/
def AckFrame.toInstr : AckFrame → Instr
  | .enterCfg h st r => .ackEnterCfg h st r
  | .leaveCfg h st => .ackLeaveCfg h st
  | .setMaxGate h st => .ackSetMaxGate h st
  | .queryCfg h st r => .ackQueryCfg h st r
  | .setSens h st => .ackSetSens h st
  | .fwVersion h st r => .ackFwVersion h st r
  | .factoryReset h st => .ackFactoryReset h st
  | .restart h st => .ackRestart h st
  | .engStart h st => .ackEngStart h st
  | .engStop h st => .ackEngStop h st
  | .unknown p => .ackUnknown p

/-- The row of a command frame the core sends. -/
def Cmd.toInstr (args : List Byte) : Cmd → Instr
  | .enterCfg => .cmdEnterCfg args
  | .leaveCfg => .cmdLeaveCfg args
  | .setMaxGate => .cmdSetMaxGate args
  | .queryCfg => .cmdQueryCfg args
  | .engStart => .cmdEngStart args
  | .engStop => .cmdEngStop args
  | .setSens => .cmdSetSens args
  | .fwVersion => .cmdFwVersion args
  | .factoryReset => .cmdFactoryReset args
  | .restart => .cmdRestart args

/-- The row of a tick's operation. -/
def TickOp.toInstr : TickOp → Instr
  | .reset => .reset
  | .reqAccept c n a => .reqAccept c n a
  | .poll => .poll
  | .nop => .nop
  | .waitTick => .waitTick
  | .stageAdvance => .stageAdvance

/-- The format of a row (R99). -/
def Instr.format : Instr → Format
  | .idleSkip _ | .sofData | .sofCmd | .append _ | .overrun _ => .b
  | .dataEng _ | .dataNormal .. | .dataUnknown _ => .df
  | .ackEnterCfg .. | .ackLeaveCfg .. | .ackSetMaxGate .. | .ackQueryCfg .. | .ackSetSens .. | .ackFwVersion ..
  | .ackFactoryReset .. | .ackRestart .. | .ackEngStart .. | .ackEngStop .. | .ackUnknown _ => .cf
  | .cmdEnterCfg _ | .cmdLeaveCfg _ | .cmdSetMaxGate _ | .cmdQueryCfg _ | .cmdEngStart _ | .cmdEngStop _
  | .cmdSetSens _ | .cmdFwVersion _ | .cmdFactoryReset _ | .cmdRestart _ => .tf
  | .reset | .reqAccept .. | .poll | .nop | .waitTick | .stageAdvance => .h

end Sys2Proof
end

