-- ==== Sys2Proof/WellFormed.lean ====
section
/-! DEFINITION. Which terms of `Instr` stand for a pattern of opcode_table.json: the checks a well-formed instruction
passes. -/
namespace Sys2Proof

/-- `SHAPES` of R160: the ten recognised pairs (intra-frame length, code) of an ack. -/
def ackShapes : List (Nat × Byte) :=
  [(8, 0xFF), (4, 0xFE), (4, 0x60), (28, 0x61), (4, 0x64), (12, 0xA0), (4, 0xA2), (4, 0xA3), (4, 0x62), (4, 0x63)]

/-- The codes a host may request (R191). -/
def targetCodes : List Byte := [0x60, 0x61, 0x62, 0x63, 0x64, 0xA0, 0xA2, 0xA3]

/-- A request is legal if its code is one of the eight and it has at most `ARGS_MAX` arguments (R191). -/
def legalRequest (max : ArgsMax) (code : Byte) (nargs : BitVec 5) : Bool :=
  targetCodes.contains code && decide (nargs.toNat ≤ max.val)

/-- The payload of a data frame that DATA.ENG or DATA.NORMAL recognises (R93). -/
def knownDataPayload (p : List Byte) : Bool :=
  p.take 2 == [0x01, 0xAA] || (p.take 2 == [0x02, 0xAA] && p.length == 13 && p.drop 11 == [0x55, 0x00])

/-- The payload of an ack frame whose pair (L, code) is in `SHAPES` (R94). The empty payload has no code of its own. -/
def knownAckPayload (p : List Byte) : Bool :=
  match p with
  | [] => false
  | c :: _ => ackShapes.contains (p.length, c)

/-- The checks, one a row: IDLE.SKIP is the default row of the two start markers (R85); a received frame has a payload of
at most 30 bytes (R84), a default row none that a named row recognises (R93, R94); a sent frame at most 18 arguments
(R195); REQ_ACCEPT a request that is legal for some `ARGS_MAX` (R191). -/
def Instr.wf : Instr → Bool
  | .idleSkip b => b != 0xF4 && b != 0xFD
  | .dataEng rest => decide (rest.length ≤ 28)
  | .dataUnknown p => decide (p.length ≤ 30) && !knownDataPayload p
  | .ackUnknown p => decide (p.length ≤ 30) && !knownAckPayload p
  | .cmdEnterCfg a | .cmdLeaveCfg a | .cmdSetMaxGate a | .cmdQueryCfg a | .cmdEngStart a | .cmdEngStop a
  | .cmdSetSens a | .cmdFwVersion a | .cmdFactoryReset a | .cmdRestart a => decide (a.length ≤ argSlots)
  | .reqAccept c n _ => legalRequest ArgsMax.all c n
  | .sofData | .sofCmd | .append _ | .overrun _ | .dataNormal .. => true
  | .ackEnterCfg .. | .ackLeaveCfg .. | .ackSetMaxGate .. | .ackQueryCfg .. | .ackSetSens .. | .ackFwVersion ..
  | .ackFactoryReset .. | .ackRestart .. | .ackEngStart .. | .ackEngStop .. => true
  | .reset | .poll | .nop | .waitTick | .stageAdvance => true

end Sys2Proof
end

