-- ==== Sys2Proof/Decode.lean ====
section
/-! DEFINITION. The decoder, total on any bytes and any inputs of a tick, and after it the encoder, both from the frame
formats and the opcode map of 30_encoding.md. -/
namespace Sys2Proof

/-! ## Byte order and frame layout -/

/-- A 2-byte field, the byte at the lower offset less significant (R62). -/
def le16 (lo hi : Byte) : BitVec 16 := hi ++ lo

/-- A 4-byte field, the byte at the lowest offset least significant (R62). -/
def le32 (b0 b1 b2 b3 : Byte) : BitVec 32 := b3 ++ b2 ++ b1 ++ b0

/-- The less significant byte of a 2-byte field (R62). -/
def lo8 (v : BitVec 16) : Byte := v.extractLsb' 0 8

/-- The more significant byte of a 2-byte field (R62). -/
def hi8 (v : BitVec 16) : Byte := v.extractLsb' 8 8

/-- The first `n` bytes of a list, with 0 for those it does not have. -/
def vecOf (n : Nat) (l : List Byte) : Vector Byte n :=
  ⟨(l.take n ++ List.replicate (n - l.length) 0).toArray, by simp; omega⟩

/-- The header of a class (R80, R81). -/
def headerOf : FrameClass → List Byte
  | .data => [0xF4, 0xF3, 0xF2, 0xF1]
  | .cmd => [0xFD, 0xFC, 0xFB, 0xFA]

/-- The trailer of a class (R80, R81). -/
def trailerOf : FrameClass → List Byte
  | .data => [0xF8, 0xF7, 0xF6, 0xF5]
  | .cmd => [0x04, 0x03, 0x02, 0x01]

/-- `L`, the intra-frame length at offsets 4 and 5 (R84); 0 for fewer than 6 bytes, which no frame has (R117). -/
def declaredLength (frame : List Byte) : Nat :=
  (le16 (frame.getD 4 0) (frame.getD 5 0)).toNat

/-- The length check `L = n - 10` in the form without subtraction (R124, R256(c)). -/
def lengthOk (frame : List Byte) : Bool :=
  declaredLength frame + envelope == frame.length

/-- The payload, offsets 6 to `n - 5` (R68). -/
def payloadOf (frame : List Byte) : List Byte :=
  (frame.drop 6).take (frame.length - envelope)

/-- The header and the last four bytes are the marker set of the class (R117). -/
def hasMarkers (cls : FrameClass) (frame : List Byte) : Bool :=
  frame.take 4 == headerOf cls && frame.drop (frame.length - 4) == trailerOf cls

/-! ## Classification -/

/-- The row of a consumed byte, by the framing state before the step and the order of R110. -/
def decodeByte (st : SyncState) (len : BitVec 6) (b : Byte) : ByteOp :=
  match st with
  | .idle => if b = 0xF4 then .sofData else if b = 0xFD then .sofCmd else .idleSkip b
  | .accum => if len.toNat = bufCap then .overrun b else .append b

/-- The row of a data frame that passed the length check, by its payload: engineering tag, then normal-mode shape, else
unknown (R93, R140). For an empty payload and a payload of one byte the tag overlaps the trailer and is unknown (R141). -/
def classifyData (p : List Byte) : DataFrame :=
  match p with
  | t0 :: t1 :: rest =>
    if t0 = 0x01 ∧ t1 = 0xAA then .eng rest
    else if t0 = 0x02 ∧ t1 = 0xAA then
      match rest with
      | [tt, md0, md1, me, sd0, sd1, se, dd, u, c0, c1] =>
        if c0 = 0x55 ∧ c1 = 0x00 then .normal tt (le16 md0 md1) me (le16 sd0 sd1) se dd u else .unknown p
      | _ => .unknown p
    else .unknown p
  | _ => .unknown p

/-- The row of an ack frame that passed the length check, by the pair (payload length, code) (R94, R162). The high byte of
the code is kept and not examined (R92). -/
def classifyAck (p : List Byte) : AckFrame :=
  match p with
  | c :: h :: s0 :: s1 :: result =>
    let st := le16 s0 s1
    match result.length with
    | 0 =>
      if c = 0xFE then .leaveCfg h st
      else if c = 0x60 then .setMaxGate h st
      else if c = 0x64 then .setSens h st
      else if c = 0xA2 then .factoryReset h st
      else if c = 0xA3 then .restart h st
      else if c = 0x62 then .engStart h st
      else if c = 0x63 then .engStop h st
      else .unknown p
    | 4 => if c = 0xFF then .enterCfg h st (vecOf 4 result) else .unknown p
    | 8 => if c = 0xA0 then .fwVersion h st (vecOf 8 result) else .unknown p
    | 24 => if c = 0x61 then .queryCfg h st (vecOf 24 result) else .unknown p
    | _ => .unknown p
  | _ => .unknown p

/-- The one-byte code of a command (R95). -/
def Cmd.code : Cmd → Byte
  | .enterCfg => 0xFF
  | .leaveCfg => 0xFE
  | .setMaxGate => 0x60
  | .queryCfg => 0x61
  | .engStart => 0x62
  | .engStop => 0x63
  | .setSens => 0x64
  | .fwVersion => 0xA0
  | .factoryReset => 0xA2
  | .restart => 0xA3

/-- The command of a code byte (R95). -/
def Cmd.ofCode (c : Byte) : Option Cmd :=
  if c = 0xFF then some .enterCfg
  else if c = 0xFE then some .leaveCfg
  else if c = 0x60 then some .setMaxGate
  else if c = 0x61 then some .queryCfg
  else if c = 0x62 then some .engStart
  else if c = 0x63 then some .engStop
  else if c = 0x64 then some .setSens
  else if c = 0xA0 then some .fwVersion
  else if c = 0xA2 then some .factoryReset
  else if c = 0xA3 then some .restart
  else none

/-- The operation of a tick (R240): the first line of the table whose condition holds, on `ARGS_MAX`, `txn_state` before the
tick and the inputs of the tick. -/
def decodeTick (max : ArgsMax) (txn : TxnState) (t : TickInput) : TickOp :=
  if t.rst then .reset
  else match txn with
    | .idle =>
      if t.reqValid && legalRequest max t.reqCode t.reqNargs then .reqAccept t.reqCode t.reqNargs t.reqArgs
      else if t.poll then .poll
      else .nop
    | .sent => .waitTick
    | .ackedSuccess | .ackedFailure | .timedOut => .stageAdvance

/-! ## The decoder -/

/-- What the decoder reads: one form for each format of R99. A frame's direction is part of the form, since command and ack
frames share the markers (R81; log 13). -/
inductive Code where
  /-- A byte taken from `RX`, with `sync_state` and `buf_len` before the step. -/
  | byte (st : SyncState) (len : BitVec 6) (b : Byte)
  /-- A data frame, sensor to core, whole. -/
  | data (frame : List Byte)
  /-- An ack frame, sensor to core, whole. -/
  | ack (frame : List Byte)
  /-- A command frame, core to sensor, whole. -/
  | cmd (frame : List Byte)
  /-- The inputs of a tick, with `ARGS_MAX` and `txn_state` before it. -/
  | tick (max : ArgsMax) (txn : TxnState) (t : TickInput)
  deriving DecidableEq, Repr

/-- Why the decoder answers no row. -/
inductive Reject where
  /-- More than `BUF_CAP` bytes (R84). -/
  | tooLong
  /-- Header or trailer is not that of the class (R117). -/
  | badMarkers
  /-- The declared length is not the observed length less the envelope (R124). -/
  | lengthMismatch
  /-- A sent frame whose code is none of the ten, or whose high code byte is not 0 (R95, R193). -/
  | notACommand
  deriving DecidableEq, Repr

/-- The checks every frame passes before its payload is classified: length of the buffer, markers, declared length. -/
def checkFrame (cls : FrameClass) (frame : List Byte) : Except Reject (List Byte) :=
  if bufCap < frame.length then .error .tooLong
  else if frame.length < minCheckLen || !hasMarkers cls frame then .error .badMarkers
  else if !lengthOk frame then .error .lengthMismatch
  else .ok (payloadOf frame)

/-- A sent frame's payload: code, a zero byte, at most 18 arguments (R193, R195). -/
def classifyCmd (p : List Byte) : Except Reject Instr :=
  match p with
  | c :: h :: args =>
    match Cmd.ofCode c with
    | some k => if h ≠ 0x00 then .error .notACommand else if argSlots < args.length then .error .tooLong else .ok (k.toInstr args)
    | none => .error .notACommand
  | _ => .error .notACommand

/-- The decoder: total, and every pattern it answers no row for is rejected by name. -/
def decode : Code → Except Reject Instr
  | .byte st len b => .ok (decodeByte st len b).toInstr
  | .data f => match checkFrame .data f with
    | .ok p => .ok (classifyData p).toInstr
    | .error r => .error r
  | .ack f => match checkFrame .cmd f with
    | .ok p => .ok (classifyAck p).toInstr
    | .error r => .error r
  | .cmd f => match checkFrame .cmd f with
    | .ok p => classifyCmd p
    | .error r => .error r
  | .tick max txn t => .ok (decodeTick max txn t).toInstr

/-! ## The encoder -/

/-- A frame of the class around a payload: header, length, payload, trailer (R82, R83). -/
def frameOf (cls : FrameClass) (payload : List Byte) : List Byte :=
  headerOf cls ++ [lo8 (BitVec.ofNat 16 payload.length), hi8 (BitVec.ofNat 16 payload.length)] ++ payload ++ trailerOf cls

/-- `Frame(code, args)`, the frame the core sends (R193). -/
def commandFrame (code : Byte) (args : List Byte) : List Byte :=
  frameOf .cmd (code :: 0x00 :: args)

/-- The payload of an ack with its code, high code byte, status and result bytes (R83). -/
def ackPayload (code codeHi : Byte) (status : BitVec 16) (result : List Byte) : List Byte :=
  code :: codeHi :: lo8 status :: hi8 status :: result

/-- A tick at which nothing is presented. -/
def quietInput (now : Nat) : TickInput where
  rst := false
  now := now
  arrivals := []
  poll := false
  reqValid := false
  reqCode := 0
  reqNargs := 0
  reqArgs := vecOf argSlots []

/-- The pattern of an instruction in its format: the state conditions of the row with the smallest values that meet them,
the frame of R82, R83 or R193, or the ports of a tick. -/
def encode : Instr → Code
  | .idleSkip b => .byte .idle 0 b
  | .sofData => .byte .idle 0 0xF4
  | .sofCmd => .byte .idle 0 0xFD
  | .append b => .byte .accum 1 b
  | .overrun b => .byte .accum 40 b
  | .dataEng rest => .data (frameOf .data (0x01 :: 0xAA :: rest))
  | .dataNormal tt md me sd se dd u =>
    .data (frameOf .data [0x02, 0xAA, tt, lo8 md, hi8 md, me, lo8 sd, hi8 sd, se, dd, u, 0x55, 0x00])
  | .dataUnknown p => .data (frameOf .data p)
  | .ackEnterCfg h st r => .ack (frameOf .cmd (ackPayload 0xFF h st r.toList))
  | .ackLeaveCfg h st => .ack (frameOf .cmd (ackPayload 0xFE h st []))
  | .ackSetMaxGate h st => .ack (frameOf .cmd (ackPayload 0x60 h st []))
  | .ackQueryCfg h st r => .ack (frameOf .cmd (ackPayload 0x61 h st r.toList))
  | .ackSetSens h st => .ack (frameOf .cmd (ackPayload 0x64 h st []))
  | .ackFwVersion h st r => .ack (frameOf .cmd (ackPayload 0xA0 h st r.toList))
  | .ackFactoryReset h st => .ack (frameOf .cmd (ackPayload 0xA2 h st []))
  | .ackRestart h st => .ack (frameOf .cmd (ackPayload 0xA3 h st []))
  | .ackEngStart h st => .ack (frameOf .cmd (ackPayload 0x62 h st []))
  | .ackEngStop h st => .ack (frameOf .cmd (ackPayload 0x63 h st []))
  | .ackUnknown p => .ack (frameOf .cmd p)
  | .cmdEnterCfg a => .cmd (commandFrame 0xFF a)
  | .cmdLeaveCfg a => .cmd (commandFrame 0xFE a)
  | .cmdSetMaxGate a => .cmd (commandFrame 0x60 a)
  | .cmdQueryCfg a => .cmd (commandFrame 0x61 a)
  | .cmdEngStart a => .cmd (commandFrame 0x62 a)
  | .cmdEngStop a => .cmd (commandFrame 0x63 a)
  | .cmdSetSens a => .cmd (commandFrame 0x64 a)
  | .cmdFwVersion a => .cmd (commandFrame 0xA0 a)
  | .cmdFactoryReset a => .cmd (commandFrame 0xA2 a)
  | .cmdRestart a => .cmd (commandFrame 0xA3 a)
  | .reset => .tick .all .idle { quietInput 0 with rst := true }
  | .reqAccept c n a => .tick .all .idle { quietInput 0 with reqValid := true, reqCode := c, reqNargs := n, reqArgs := a }
  | .poll => .tick .all .idle { quietInput 0 with poll := true }
  | .nop => .tick .all .idle (quietInput 0)
  | .waitTick => .tick .all .sent (quietInput 0)
  | .stageAdvance => .tick .all .ackedSuccess (quietInput 0)

/-! ## The words of opcode_table.json -/

/-- `n` bytes of a word from its bit `8 * k` on, the first in bits 7 to 0. -/
def bytesOf (w : Nat) (k : Nat) : Nat → List Byte
  | 0 => []
  | n + 1 => BitVec.ofNat 8 (w >>> (8 * k)) :: bytesOf w (k + 1) n

/-- The inputs of a tick from the three bits (`rst`, legal request presented, `poll`) of a format H word (R99). The legal
request is the first of R191, code 60 with no arguments (log 14). -/
def tickOfBits (now : Nat) (w : Nat) : TickInput :=
  { quietInput now with rst := w.testBit 2, reqValid := w.testBit 1, reqCode := 0x60, poll := w.testBit 0 }

/-- The bytes of a table word in wire order. A word whose lowest byte is no start marker is read as R99 prints the row, offset
0 leftmost, which is most significant (log 14). -/
def wireBytes (nbits w : Nat) : List Byte :=
  let bs := bytesOf w 0 ((nbits + 7) / 8)
  if bs.head? = some 0xF4 ∨ bs.head? = some 0xFD then bs else bs.reverse

/-- The frame that the bytes of a table word begin: its header, length and payload bytes as the word gives them (0 above
it), then what the table fixes outside the word, the `55 00` tail of the normal-mode row and the trailer (R99; log 14). The
payload has the bytes the length field declares; a length field the word leaves 0 stands for 2, the length of the shortest
frame with the two payload bytes the word gives. -/
def frameOfBytes (bs : List Byte) : List Byte :=
  let len := if declaredLength bs = 0 then 2 else declaredLength bs
  let payload := ((bs.drop 6) ++ List.replicate 31 0).take (min len 31)
  let cls : FrameClass := if bs.head? = some 0xF4 then .data else .cmd
  let payload := if cls = .data ∧ len = 13 ∧ payload.take 2 = [0x02, 0xAA] then payload.take 11 ++ [0x55, 0x00] else payload
  bs.take 4 ++ [lo8 (BitVec.ofNat 16 len), hi8 (BitVec.ofNat 16 len)] ++ payload ++ trailerOf cls

/-- The pattern a table word stands for, read in the state after reset (`sync_state = IDLE`, `txn_state = IDLE`). Words of
8 bits: below 16 the hexadecimal digit of a format H row, from 16 on a byte of format B. Longer words: a frame, an ack
where its pair (L, code) is in `SHAPES`, else a command where it is one, else an ack (log 14). -/
def codeOfWord (nbits w : Nat) : Code :=
  if nbits ≤ 8 then
    if w < 16 then .tick .all .idle (tickOfBits 0 w) else .byte .idle 0 (BitVec.ofNat 8 w)
  else
    let f := frameOfBytes (wireBytes nbits w)
    if f.head? = some 0xF4 then .data f
    else if knownAckPayload (payloadOf f) then .ack f
    else match decode (.cmd f) with
      | .ok _ => .cmd f
      | .error _ => .ack f

/-- The instruction the decoder reads from a table word; none where it rejects it. -/
def decodeTableWord (nbits w : Nat) : Option Instr :=
  match decode (codeOfWord nbits w) with
  | .ok i => some i
  | .error _ => none

end Sys2Proof
end

