-- ==== Sys2Proof/Machine/State.lean ====
section
/-! DEFINITION. The state of the core (10_state.md R20 to R38), with the environment's part of it (R39) and the output
ports of the last tick, as plain data; the result labels; what a step can stop with; the state after reset. -/
namespace Sys2Proof.Machine
open Sys2Proof

/-- The frame buffer's written cells, offsets strictly rising (R22, R60). An offset not listed has no value: nothing has been
written there since the first reset (U9; log 8). -/
abbrev Memory := List Host.Cell

/-- The framing registers (R21 to R24). -/
structure Framing where
  /-- `sync_state` (R21). -/
  sync : SyncState
  /-- `buf[0..39]` (R22). -/
  buf : Memory
  /-- `buf_len`, 6 bits (R23). -/
  bufLen : BitVec 6
  /-- `buf_class` (R24). -/
  bufClass : FrameClass
  deriving DecidableEq, Repr

/-- Telemetry State (R26). -/
structure Telemetry where
  /-- `tgt_type`: bit 0 moving, bit 1 stationary (R27). -/
  tgtType : Byte
  /-- `mov_dist`, cm. -/
  movDist : BitVec 16
  /-- `mov_energy`. -/
  movEnergy : Byte
  /-- `sta_dist`, cm. -/
  staDist : BitVec 16
  /-- `sta_energy`. -/
  staEnergy : Byte
  /-- `det_dist`. -/
  detDist : Byte
  /-- `tel_ts`. -/
  ts : Nat
  /-- `tel_valid`. -/
  valid : Bool
  deriving DecidableEq, Repr

/-- The gate, sensitivity and timeout registers of Configuration State (R29, R30). -/
structure GateConfig where
  /-- `max_gate`. -/
  maxGate : Byte
  /-- `max_mov_gate`. -/
  maxMovGate : Byte
  /-- `max_sta_gate`. -/
  maxStaGate : Byte
  /-- `idle_time`, seconds. -/
  idleTime : BitVec 16
  /-- `mot_sens[0..8]` (R30). -/
  motSens : Vector Byte nGates
  /-- `sta_sens[0..8]` (R30). -/
  staSens : Vector Byte nGates
  /-- `cfg_valid`. -/
  valid : Bool
  deriving DecidableEq, Repr

/-- The firmware-version registers of Configuration State (R31). -/
structure Firmware where
  /-- `fw_major`. -/
  major : Byte
  /-- `fw_minor`. -/
  minor : Byte
  /-- `fw_build`. -/
  build : BitVec 32
  /-- `fw_valid`. -/
  valid : Bool
  deriving DecidableEq, Repr

/-- Connectivity (R32). -/
structure Connectivity where
  /-- `conn_ts`. -/
  ts : Nat
  /-- `conn_valid`. -/
  valid : Bool
  deriving DecidableEq, Repr

/-- The transaction registers (R34 to R38). -/
structure Transaction where
  /-- `txn_state` (R34). -/
  state : TxnState
  /-- `txn_stage` (R35). -/
  stage : Stage
  /-- `await_code` (R36). -/
  awaitCode : Byte
  /-- `t_send` (R36). -/
  tSend : Nat
  /-- `tgt_code` (R37). -/
  tgtCode : Byte
  /-- `tgt_nargs`, 5 bits (R37). -/
  tgtNargs : BitVec 5
  /-- `tgt_args[0..17]` (R37). -/
  tgtArgs : Vector Byte argSlots
  /-- `res_enter` (R38). -/
  resEnter : StageOutcome
  /-- `res_target` (R38). -/
  resTarget : StageOutcome
  /-- `res_leave` (R38). -/
  resLeave : StageOutcome
  deriving DecidableEq, Repr

/-- The output ports of R42 that belong to one tick, as the last tick drove them (log 7). -/
structure Outputs where
  /-- `rx_ready` (R44). -/
  rxReady : Bool
  /-- `tx_valid` (R45). -/
  txValid : Bool
  /-- `tx_len`, 5 bits (R45). -/
  txLen : BitVec 5
  /-- `tx_bytes`, 30 bytes, those at or above `tx_len` 0 (R42). -/
  txBytes : Vector Byte txMax
  /-- `frame_ok` (R48). -/
  frameOk : Bool
  /-- `req_ready` (R47). -/
  reqReady : Bool
  /-- `rsp_valid` (R47). -/
  rspValid : Bool
  /-- `rsp_ok` (R47). -/
  rspOk : Bool
  /-- `rsp_enter`, encoded as in R38. -/
  rspEnter : BitVec 2
  /-- `rsp_target`. -/
  rspTarget : BitVec 2
  /-- `rsp_leave`. -/
  rspLeave : BitVec 2
  /-- `ev_valid` (R49). -/
  evValid : Bool
  /-- `ev_label` (R49). -/
  evLabel : BitVec 4
  /-- `ev_info` (R49). -/
  evInfo : Byte
  deriving DecidableEq, Repr

/-- The state: the parameters of the instance, the registers in their groups, the environment's part (R39), and the outputs
of the last tick. -/
structure State where
  /-- The parameters of R5; no step writes them (R39(a); log 2). -/
  cfg : Config
  /-- R21 to R24. -/
  framing : Framing
  /-- R26. -/
  tel : Telemetry
  /-- R29, R30. -/
  gates : GateConfig
  /-- R31. -/
  fw : Firmware
  /-- R32. -/
  conn : Connectivity
  /-- R34 to R38. -/
  txn : Transaction
  /-- `RX`: the unread bytes, oldest first (R39(b); log 5). -/
  rx : List Byte
  /-- `TX`: every byte written, oldest first (R39(c); log 6). -/
  tx : List Byte
  /-- The clock sample of the last tick (R39(d), R46; log 17). -/
  now : Nat
  /-- What the environment presents at the coming ticks, the next first (log 4). -/
  inputs : List TickInput
  /-- How many ticks have passed: the number the free inputs are taken at when `inputs` is empty (log 4). -/
  ticks : Nat
  /-- The output ports in the last tick (log 7). -/
  out : Outputs
  deriving DecidableEq, Repr

/-- The result label a synchronizer step ends with, with its information (R40). -/
inductive Label where
  | noByte | discarded | started | accumulating | overrun | dataOk
  | dataEng (tgt : Byte)
  | dataLenMismatch | dataUnknown
  | ackOk (code : Byte)
  | ackStatusFail (code : Byte)
  | ackLenMismatch
  | ackUnknown (code : Byte)
  deriving DecidableEq, Repr

/-- What a step stops with. Each is an access to the frame buffer that the spec says never happens (R66, U9); all are safe:
the hardware would go on with an unspecified byte. No state that meets the framing invariant raises one (log 8). -/
inductive Fault where
  /-- Raised by a read of `buf` at an offset at or above `buf_len` (R66). Safe. -/
  | bufBeyondLength
  /-- Raised by a read of `buf` at an offset nothing has written (R22, U9). Safe. -/
  | bufUnwritten
  /-- Raised by a write of `buf` at an offset of `BUF_CAP` or more, which does not exist (R60, R66). Safe. -/
  | bufOffsetOutOfRange
  deriving DecidableEq, Repr

/-- What `exec` refuses. -/
inductive Refusal where
  /-- Raised by an arm of `exec` whose instruction has no meaning yet; there is none. Safe. -/
  | notModelled (mnemonic : String)
  deriving DecidableEq, Repr

/-- The framing registers after reset; nothing of `buf` is written (R50). -/
def Framing.reset : Framing where
  sync := .idle
  buf := []
  bufLen := 0
  bufClass := .data

/-- Telemetry State after reset (R26, R50). -/
def Telemetry.reset : Telemetry where
  tgtType := 0
  movDist := 0
  movEnergy := 0
  staDist := 0
  staEnergy := 0
  detDist := 0
  ts := 0
  valid := false

/-- The gate registers after reset (R29, R30, R50). -/
def GateConfig.reset : GateConfig where
  maxGate := 0
  maxMovGate := 0
  maxStaGate := 0
  idleTime := 0
  motSens := vecOf nGates []
  staSens := vecOf nGates []
  valid := false

/-- The firmware registers after reset (R31, R50). -/
def Firmware.reset : Firmware where
  major := 0
  minor := 0
  build := 0
  valid := false

/-- Connectivity after reset (R32, R50). -/
def Connectivity.reset : Connectivity where
  ts := 0
  valid := false

/-- The transaction registers after reset and whenever `txn_state` returns to `IDLE` (R50, R214). -/
def Transaction.cleared : Transaction where
  state := .idle
  stage := .enter
  awaitCode := 0
  tSend := 0
  tgtCode := 0
  tgtNargs := 0
  tgtArgs := vecOf argSlots []
  resEnter := .none
  resTarget := .none
  resLeave := .none

/-- Every output 0: what a tick drives where no rule says otherwise (R44 to R49, R244). -/
def Outputs.quiet : Outputs where
  rxReady := false
  txValid := false
  txLen := 0
  txBytes := vecOf txMax []
  frameOk := false
  reqReady := false
  rspValid := false
  rspOk := false
  rspEnter := 0
  rspTarget := 0
  rspLeave := 0
  evValid := false
  evLabel := 0
  evInfo := 0

/-- The state after a RESET operation (R50, R290), where a model starts (R291), with the default parameters of R5, both
streams empty, the clock sample 0 and nothing known of the coming inputs (log 4, 5, 6, 7, 16, 17). -/
def State.reset : State where
  cfg := Config.default
  framing := Framing.reset
  tel := Telemetry.reset
  gates := GateConfig.reset
  fw := Firmware.reset
  conn := Connectivity.reset
  txn := Transaction.cleared
  rx := []
  tx := []
  now := 0
  inputs := []
  ticks := 0
  out := Outputs.quiet

end Sys2Proof.Machine
end

