-- ==== Sys2Proof/Machine/Flags.lean ====
section
/-! DEFINITION. The one-bit results: `frame_ok`, the event codes, the stage outcomes' codes, the two clock comparisons and
the status outputs (R33, R38, R40, R41, R201, R250 to R254). -/
namespace Sys2Proof.Machine
open Sys2Proof

/-- `frame_ok`: true for the two labels of a frame fully received and successfully parsed (R40, R41). -/
def Label.frameOk : Label → Bool
  | .dataOk | .ackOk _ => true
  | .noByte | .discarded | .started | .accumulating | .overrun | .dataEng _ | .dataLenMismatch | .dataUnknown
  | .ackStatusFail _ | .ackLenMismatch | .ackUnknown _ => false

/-- The numeric code of a label (R40). -/
def Label.code : Label → BitVec 4
  | .noByte => 0
  | .discarded => 1
  | .started => 2
  | .accumulating => 3
  | .overrun => 4
  | .dataOk => 5
  | .dataEng _ => 6
  | .dataLenMismatch => 7
  | .dataUnknown => 8
  | .ackOk _ => 9
  | .ackStatusFail _ => 10
  | .ackLenMismatch => 11
  | .ackUnknown _ => 12

/-- The information byte of a label, 0 for those without (R40, R49). -/
def Label.info : Label → Byte
  | .dataEng b | .ackOk b | .ackStatusFail b | .ackUnknown b => b
  | .noByte | .discarded | .started | .accumulating | .overrun | .dataOk | .dataLenMismatch | .dataUnknown
  | .ackLenMismatch => 0

/-- The event label of `TXN_TIMEOUT` (R42, R260). -/
def txnTimeoutCode : BitVec 4 := 13

/-- The numeric code of a stage outcome (R38). -/
def outcomeCode : StageOutcome → BitVec 2
  | .none => 0
  | .success => 1
  | .failure => 2
  | .timeout => 3

/-- The numeric code of `sync_state` (R21). -/
def syncCode : SyncState → BitVec 1
  | .idle => 0
  | .accum => 1

/-- The numeric code of `buf_class` (R24). -/
def classCode : FrameClass → BitVec 1
  | .data => 0
  | .cmd => 1

/-- The numeric code of `txn_state` (R34). -/
def txnStateCode : TxnState → BitVec 3
  | .idle => 0
  | .sent => 1
  | .ackedSuccess => 2
  | .ackedFailure => 3
  | .timedOut => 4

/-- The numeric code of `txn_stage` (R35). -/
def stageCode : Stage → BitVec 2
  | .enter => 0
  | .target => 1
  | .leave => 2

/-- `Elapsed(t)` = `(Now() - t) mod 2^CLOCK_W`, the subtraction that wraps (R9, R256(e)). -/
def elapsed (cfg : Config) (now t : Nat) : Nat :=
  (now + (2 ^ cfg.clockW - t % 2 ^ cfg.clockW)) % 2 ^ cfg.clockW

/-- The deadline of the stage has passed: `Elapsed(t_send) >= ACK_TIMEOUT_MS` (R201). -/
def deadlinePassed (s : State) : Bool :=
  decide (s.cfg.ackTimeoutMs ≤ elapsed s.cfg s.now s.txn.tSend)

/-- `moving` (R251). -/
def moving (s : State) : Bool := s.tel.tgtType.getLsbD 0

/-- `stationary` (R251). -/
def stationary (s : State) : Bool := s.tel.tgtType.getLsbD 1

/-- `presence` (R250). -/
def presence (s : State) : Bool := moving s || stationary s

/-- The staleness window of a number of milliseconds; an illegal number is refused (R5, R256(e); D28). -/
def staleWindowOf (cfg : Config) (ms : Nat) : Option (StaleWindow cfg) :=
  if h : ms < 2 ^ cfg.clockW then some ⟨ms, h⟩ else none

/-- `connected` at a reading of the `now` input, with the OPEN parameter `STALE_WINDOW_MS` as an argument (R5, R252; log 3).
Both sides of the comparison are below `2^CLOCK_W`, so it is the unsigned `CLOCK_W`-bit one of R256(e). -/
def connected (s : State) (staleWindowMs : StaleWindow s.cfg) (now : Nat) : Bool :=
  s.conn.valid && decide (elapsed s.cfg now s.conn.ts < staleWindowMs.val)

/-- The status outputs that are a function of the registers alone: the derived bits and the registers of R26, R29, R30, R31
and `conn_valid`, unmodified (R42, R250, R251, R253, R254). -/
structure StatusOutputs where
  presence : Bool
  moving : Bool
  stationary : Bool
  tel : Telemetry
  gates : GateConfig
  fw : Firmware
  connValid : Bool
  deriving DecidableEq, Repr

/-- What the host reads after a tick; `connected` besides (R253, R254). -/
def statusOutputs (s : State) : StatusOutputs where
  presence := presence s
  moving := moving s
  stationary := stationary s
  tel := s.tel
  gates := s.gates
  fw := s.fw
  connValid := s.conn.valid

end Sys2Proof.Machine
end

