-- ==== Sys2Proof/Machine/Operands.lean ====
section
/-! DEFINITION. How the operands of the rows are assembled: the target type of an engineering frame, the status word, the
result fields of the two acks that carry some, and the arguments of a request (R88 to R92, R166, R168, R192). -/
namespace Sys2Proof.Machine
open Sys2Proof

/-- The byte at offset 8 of an engineering-mode frame, given what follows the tag: with `L = 2` it is the first trailer
byte (R143). -/
def engTarget (rest : List Byte) : Byte := rest.headD 0xF8

/-- The status word is success iff both bytes are zero (R92(c)). -/
def statusOk (status : BitVec 16) : Bool := lo8 status == 0 && hi8 status == 0

/-- The code byte of an unknown ack, offset 6: of an empty payload it is the first trailer byte (R66, R175). -/
def unknownCode (payload : List Byte) : Byte := payload.headD 0x04

/-- The gate registers a query-configuration ack gives: the byte at buffer offset `QCFG_BASE + i` is result byte
`QCFG_BASE - 10 + i` (R89, R166). -/
def gatesOf (cfg : Config) (result : Vector Byte 24) : GateConfig :=
  let f : Fin 23 → Byte := fun i => result[cfg.qcfgBase.val - 10 + i.val]'(by have := cfg.qcfgBase.property; omega)
  { maxGate := f 0
    maxMovGate := f 1
    maxStaGate := f 2
    motSens := ⟨#[f 3, f 4, f 5, f 6, f 7, f 8, f 9, f 10, f 11], rfl⟩
    staSens := ⟨#[f 12, f 13, f 14, f 15, f 16, f 17, f 18, f 19, f 20], rfl⟩
    idleTime := le16 (f 21) (f 22)
    valid := true }

/-- The firmware registers a firmware-version ack gives: the byte at buffer offset `FWV_BASE + i` is result byte
`FWV_BASE - 10 + i` (R90, R168). -/
def firmwareOf (cfg : Config) (result : Vector Byte 8) : Firmware :=
  let f : Fin 6 → Byte := fun i => result[cfg.fwvBase.val - 10 + i.val]'(by have := cfg.fwvBase.property; omega)
  { minor := f 0
    major := f 1
    build := le32 (f 2) (f 3) (f 4) (f 5)
    valid := true }

/-- The latched arguments of a request: those below `req_nargs`, 0 above (R192). -/
def latchedArgs (nargs : BitVec 5) (args : Vector Byte argSlots) : Vector Byte argSlots :=
  vecOf argSlots (args.toList.take nargs.toNat)

/-- `tgt_args[0 .. tgt_nargs-1]` (R193). -/
def targetArgs (t : Transaction) : List Byte := t.tgtArgs.toList.take t.tgtNargs.toNat

end Sys2Proof.Machine
end

