-- ==== Sys2Proof/Machine/Ops.lean ====
section
/-! DEFINITION. The named operations over the frame buffer, the two streams, the registers and the ports (R9), with raising
an error as one shared operation (R260, R261). -/
namespace Sys2Proof.Machine
open Sys2Proof

/-! ## The frame buffer's cells -/

/-- The byte at an offset, none if nothing has been written there. -/
def Memory.read : Memory → Nat → Option Byte
  | [], _ => none
  | (k, v) :: m, a => if a = k then some v else Memory.read m a

/-- One byte written, the offsets kept rising. -/
def Memory.write : Memory → Nat → Byte → Memory
  | [], a, v => [(a, v)]
  | (k, x) :: m, a, v =>
    if a < k then (a, v) :: (k, x) :: m
    else if a = k then (a, v) :: m
    else (k, x) :: Memory.write m a v

/-- The canonical form: offsets strictly rising and below `BUF_CAP`. -/
def Memory.wf : Memory → Bool
  | [] => true
  | [(k, _)] => decide (k < bufCap)
  | (k, _) :: (k', x) :: m => decide (k < k') && Memory.wf ((k', x) :: m)

/-! ## Reads and writes of `buf` (R9, R66) -/

/-- `buf[a]`: only below `buf_len` (R66). -/
def bufByte (s : State) (a : Nat) : Except Fault Byte :=
  if a < s.framing.bufLen.toNat then
    match Memory.read s.framing.buf a with
    | some b => .ok b
    | none => .error .bufUnwritten
  else .error .bufBeyondLength

/-- `buf[a .. a+n-1]`. -/
def bufRange (s : State) (a : Nat) : Nat → Except Fault (List Byte)
  | 0 => .ok []
  | n + 1 =>
    match bufByte s a with
    | .error f => .error f
    | .ok b =>
      match bufRange s (a + 1) n with
      | .error f => .error f
      | .ok bs => .ok (b :: bs)

/-- `MemWrite(a, 1, v)`: only at an offset that exists (R66). -/
def bufWrite (a : Nat) (v : Byte) (s : State) : Except Fault State :=
  if a < bufCap then .ok { s with framing := { s.framing with buf := Memory.write s.framing.buf a v } }
  else .error .bufOffsetOutOfRange

/-! ## The streams and the ports -/

/-- `RxRead()`: the oldest unread byte is removed and `rx_ready` is raised (R44). -/
def rxRead (s : State) : State :=
  { s with rx := s.rx.tail, out := { s.out with rxReady := true } }

/-- `TxWrite(f)`: the whole frame enters `TX` and is driven on the transmit port (R45). -/
def txWrite (f : List Byte) (s : State) : State :=
  { s with
    tx := s.tx ++ f
    out := { s.out with txValid := true, txLen := BitVec.ofNat 5 f.length, txBytes := vecOf txMax f } }

/-- An event on the event port (R49). -/
def event (label : BitVec 4) (info : Byte) (s : State) : State :=
  { s with out := { s.out with evValid := true, evLabel := label, evInfo := info } }

/-- `Respond(ok, e, t, l)` (R9, R47). -/
def respond (ok : Bool) (e t l : StageOutcome) (s : State) : State :=
  { s with
    out := { s.out with
      rspValid := true, rspOk := ok, rspEnter := outcomeCode e, rspTarget := outcomeCode t, rspLeave := outcomeCode l } }

/-! ## The registers -/

/-- `FrameReset()` (R9, R123): `buf` and `buf_class` keep their values. -/
def frameReset (s : State) : State :=
  { s with framing := { s.framing with sync := .idle, bufLen := 0 } }

/-- `conn_ts <- Now(); conn_valid <- 1` (R32). -/
def stampConn (s : State) : State :=
  { s with conn := { ts := s.now, valid := true } }

/-- `Clear()` (R214). -/
def clearTxn (s : State) : State :=
  { s with txn := Transaction.cleared }

/-- `Send(stage, code, args)` (R194). -/
def send (stage : Stage) (code : Byte) (args : List Byte) (s : State) : State :=
  let s := txWrite (commandFrame code args) s
  { s with txn := { s.txn with tSend := s.now, awaitCode := code, stage := stage, state := .sent } }

/-! ## The end of a synchronizer step -/

/-- The step ends with a result label, shown on the event port in its tick (R40, R49). -/
def endStep (r : Label) (s : State) : State × Label :=
  (event r.code r.info s, r)

/-- A complete frame was parsed and its writes are done: reset the framing registers and end with the label, whatever it
is (R118). -/
def endFrame (r : Label) (s : State) : State × Label :=
  endStep r (frameReset s)

/-- `raise`: what an error of R260 does, whole. The framing registers are reset, no other register is written, the step ends
with the error's label; there is no handler, nothing is saved and there is nothing to return from (R9, R261, R267, R268). -/
def raiseError (r : Label) (s : State) : State × Label :=
  endFrame r s

/-! ## The tick -/

/-- What the environment presents at the coming tick: the next of the list, or a free value when its moves are not given (R6;
log 4). -/
def State.presented (s : State) : TickInput :=
  match s.inputs with
  | t :: _ => t
  | [] => Config.freeTick s.ticks

/-- The inputs of the coming tick: what is presented, of the clock the `CLOCK_W` bits that the port has (R42, R46). -/
def State.input (s : State) : TickInput :=
  { s.presented with now := s.presented.now % 2 ^ s.cfg.clockW }

/-- The tick samples its inputs: the clock, the bytes that arrived; every output starts at 0 but `req_ready`, which is a
function of `txn_state` before the tick and of `rst` (R44, R46, R47, R244). -/
def State.sample (s : State) : State :=
  { s with
    rx := s.rx ++ s.input.arrivals
    now := s.input.now
    inputs := s.inputs.tail
    ticks := s.ticks + 1
    out := { Outputs.quiet with reqReady := !s.input.rst && decide (s.txn.state = .idle) } }

/-- The outcome of a meaning from the result of a synchronizer step or of one of its cases. -/
def stepOutcome : Except Fault (State × Label) → Host.Outcome State Fault Refusal
  | .ok (s, _) => .next s
  | .error f => .fault f

end Sys2Proof.Machine
end

