-- ==== Sys2Proof/Machine/AckFrames.lean ====
section
/-! DEFINITION. The Command Frame Parser and the rows of format CF (42_command_parser.md). -/
namespace Sys2Proof.Machine
open Sys2Proof

/-- An ack of a recognised shape: on zero status the connectivity stamp, the shape's own writes and `ACK_OK(code)`, on any
other status the error status-failure (R160, R163, R176). -/
def ackOfShape (code : Byte) (status : BitVec 16) (own : State → State) (s : State) : State × Label :=
  if statusOk status then endFrame (.ackOk code) (own (stampConn s))
  else raiseError (.ackStatusFail code) s

/-- The writes of a query-configuration ack (R166). -/
def storeGates (result : Vector Byte 24) (s : State) : State :=
  { s with gates := gatesOf s.cfg result }

/-- The writes of a firmware-version ack (R168). -/
def storeFirmware (result : Vector Byte 8) (s : State) : State :=
  { s with fw := firmwareOf s.cfg result }

/-- ACK.UNKNOWN: unknown-frame-shape, with the code byte; the status is not looked at (R175, R178). -/
def ackUnknown (payload : List Byte) (s : State) : State × Label :=
  raiseError (.ackUnknown (unknownCode payload)) s

/-- The effect of an ack frame that passed the length check (R160). -/
def runAck (f : AckFrame) (s : State) : State × Label :=
  match f with
  | .enterCfg _ st _ => ackOfShape 0xFF st id s
  | .leaveCfg _ st => ackOfShape 0xFE st id s
  | .setMaxGate _ st => ackOfShape 0x60 st id s
  | .queryCfg _ st r => ackOfShape 0x61 st (storeGates r) s
  | .setSens _ st => ackOfShape 0x64 st id s
  | .fwVersion _ st r => ackOfShape 0xA0 st (storeFirmware r) s
  | .factoryReset _ st => ackOfShape 0xA2 st id s
  | .restart _ st => ackOfShape 0xA3 st id s
  | .engStart _ st => ackOfShape 0x62 st id s
  | .engStop _ st => ackOfShape 0x63 st id s
  | .unknown p => ackUnknown p s

/-- `ParseCmd(n)` on the frame's `n` bytes, with the reset of R118: length, then shape, then status (R160, R178). -/
def parseCmd (frame : List Byte) (s : State) : State × Label :=
  if lengthOk frame then runAck (classifyAck (payloadOf frame)) s
  else raiseError .ackLenMismatch s

/-- The meaning of ACK.ENTER_CFG (R164); the four result bytes are not examined (R91). -/
def execAckEnterCfg (_codeHi : Byte) (status : BitVec 16) (_result : Vector Byte 4) (s : State) :
    Host.Outcome State Fault Refusal :=
  .next (ackOfShape 0xFF status id s).1

/-- The meaning of ACK.LEAVE_CFG (R165). -/
def execAckLeaveCfg (_codeHi : Byte) (status : BitVec 16) (s : State) : Host.Outcome State Fault Refusal :=
  .next (ackOfShape 0xFE status id s).1

/-- The meaning of ACK.SET_MAX_GATE (R169). -/
def execAckSetMaxGate (_codeHi : Byte) (status : BitVec 16) (s : State) : Host.Outcome State Fault Refusal :=
  .next (ackOfShape 0x60 status id s).1

/-- The meaning of ACK.QUERY_CFG (R166). -/
def execAckQueryCfg (_codeHi : Byte) (status : BitVec 16) (result : Vector Byte 24) (s : State) :
    Host.Outcome State Fault Refusal :=
  .next (ackOfShape 0x61 status (storeGates result) s).1

/-- The meaning of ACK.SET_SENS (R170). -/
def execAckSetSens (_codeHi : Byte) (status : BitVec 16) (s : State) : Host.Outcome State Fault Refusal :=
  .next (ackOfShape 0x64 status id s).1

/-- The meaning of ACK.FW_VERSION (R168). -/
def execAckFwVersion (_codeHi : Byte) (status : BitVec 16) (result : Vector Byte 8) (s : State) :
    Host.Outcome State Fault Refusal :=
  .next (ackOfShape 0xA0 status (storeFirmware result) s).1

/-- The meaning of ACK.FACTORY_RESET (R171). -/
def execAckFactoryReset (_codeHi : Byte) (status : BitVec 16) (s : State) : Host.Outcome State Fault Refusal :=
  .next (ackOfShape 0xA2 status id s).1

/-- The meaning of ACK.RESTART (R172). -/
def execAckRestart (_codeHi : Byte) (status : BitVec 16) (s : State) : Host.Outcome State Fault Refusal :=
  .next (ackOfShape 0xA3 status id s).1

/-- The meaning of ACK.ENG_START (R173). -/
def execAckEngStart (_codeHi : Byte) (status : BitVec 16) (s : State) : Host.Outcome State Fault Refusal :=
  .next (ackOfShape 0x62 status id s).1

/-- The meaning of ACK.ENG_STOP (R174). -/
def execAckEngStop (_codeHi : Byte) (status : BitVec 16) (s : State) : Host.Outcome State Fault Refusal :=
  .next (ackOfShape 0x63 status id s).1

/-- The meaning of ACK.UNKNOWN (R175). -/
def execAckUnknown (payload : List Byte) (s : State) : Host.Outcome State Fault Refusal :=
  .next (ackUnknown payload s).1

end Sys2Proof.Machine
end

