-- ==== Sys2Proof/Machine/DataFrames.lean ====
section
/-! DEFINITION. The Data Frame Parser and the rows of format DF (41_data_parser.md). -/
namespace Sys2Proof.Machine
open Sys2Proof

/-- DATA.ENG: the target-type byte goes to the result label, no register but framing is written (R143). -/
def dataEng (rest : List Byte) (s : State) : State × Label :=
  endFrame (.dataEng (engTarget rest)) s

/-- DATA.NORMAL: the ten writes of R144, all together. -/
def dataNormal (tt : Byte) (md : BitVec 16) (me : Byte) (sd : BitVec 16) (se dd : Byte) (s : State) : State × Label :=
  endFrame .dataOk
    (stampConn { s with
      tel := {
        tgtType := tt, movDist := md, movEnergy := me, staDist := sd, staEnergy := se, detDist := dd
        ts := s.now, valid := true } })

/-- DATA.UNKNOWN: unknown-frame-shape (R145). -/
def dataUnknown (s : State) : State × Label :=
  raiseError .dataUnknown s

/-- The effect of a data frame that passed the length check (R140). -/
def runData (f : DataFrame) (s : State) : State × Label :=
  match f with
  | .eng rest => dataEng rest s
  | .normal tt md me sd se dd _ => dataNormal tt md me sd se dd s
  | .unknown _ => dataUnknown s

/-- `ParseData(n)` on the frame's `n` bytes, with the reset of R118: length check first, then the shape (R140, R142). -/
def parseData (frame : List Byte) (s : State) : State × Label :=
  if lengthOk frame then runData (classifyData (payloadOf frame)) s
  else raiseError .dataLenMismatch s

/-- The meaning of DATA.ENG (R143). -/
def execDataEng (rest : List Byte) (s : State) : Host.Outcome State Fault Refusal :=
  .next (dataEng rest s).1

/-- The meaning of DATA.NORMAL (R144); the byte at offset 16 is not examined. -/
def execDataNormal (tt : Byte) (md : BitVec 16) (me : Byte) (sd : BitVec 16) (se dd _unassigned : Byte) (s : State) :
    Host.Outcome State Fault Refusal :=
  .next (dataNormal tt md me sd se dd s).1

/-- The meaning of DATA.UNKNOWN (R145). -/
def execDataUnknown (_payload : List Byte) (s : State) : Host.Outcome State Fault Refusal :=
  .next (dataUnknown s).1

end Sys2Proof.Machine
end

