-- ==== Sys2Proof/Machine/Sync.lean ====
section
/-! DEFINITION. The synchronizer step, the validity check, the dispatch to the parsers and the rows of format B
(40_synchronizer.md). -/
namespace Sys2Proof.Machine
open Sys2Proof

/-- `MarkersMatch()`: the header and the last four bytes are the marker set of `buf_class` (R117). -/
def markersMatch (s : State) : Except Fault Bool :=
  match bufRange s 0 4 with
  | .error f => .error f
  | .ok h =>
    match bufRange s (s.framing.bufLen.toNat - 4) 4 with
    | .error f => .error f
    | .ok t => .ok (h == headerOf s.framing.bufClass && t == trailerOf s.framing.bufClass)

/-- The dispatch of a complete frame to the parser of its class (R118); the parser's rows reset the framing registers. -/
def dispatchFrame (s : State) : Except Fault (State × Label) :=
  match bufRange s 0 s.framing.bufLen.toNat with
  | .error f => .error f
  | .ok frame =>
    match s.framing.bufClass with
    | .data => .ok (parseData frame s)
    | .cmd => .ok (parseCmd frame s)

/-- IDLE.SKIP: the byte is consumed and discarded (R112). -/
def idleSkip (s : State) : State × Label :=
  endStep .discarded (rxRead s)

/-- SOF.DATA and SOF.CMD: the start byte is consumed and stored at offset 0, the frame's class is set (R113, R114). -/
def startFrame (cls : FrameClass) (b : Byte) (s : State) : State × Label :=
  let s := rxRead s
  endStep .started
    { s with framing := { sync := .accum, buf := Memory.write s.framing.buf 0 b, bufLen := 1, bufClass := cls } }

/-- `buf[buf_len] <- b; buf_len <- buf_len + 1`, the byte consumed (R116). -/
def storeByte (b : Byte) (s : State) : Except Fault State :=
  match bufWrite s.framing.bufLen.toNat b (rxRead s) with
  | .error f => .error f
  | .ok s => .ok { s with framing := { s.framing with bufLen := s.framing.bufLen + 1 } }

/-- What follows the append: from `MIN_CHECK_LEN` bytes on the validity check, and on a match the dispatch (R116, R117). -/
def afterAppend (s : State) : Except Fault (State × Label) :=
  if s.framing.bufLen.toNat < minCheckLen then .ok (endStep .accumulating s)
  else
    match markersMatch s with
    | .error f => .error f
    | .ok true => dispatchFrame s
    | .ok false => .ok (endStep .accumulating s)

/-- APPEND (R116). -/
def append (b : Byte) (s : State) : Except Fault (State × Label) :=
  match storeByte b s with
  | .error f => .error f
  | .ok s => afterAppend s

/-- OVERRUN: the byte is consumed and dropped, frame-overrun is raised (R115). -/
def overrun (s : State) : State × Label :=
  raiseError .overrun (rxRead s)

/-- The case of a synchronizer step that a consumed byte selects (R110, R119). -/
def runByte (op : ByteOp) (s : State) : Except Fault (State × Label) :=
  match op with
  | .idleSkip _ => .ok (idleSkip s)
  | .sofData => .ok (startFrame .data 0xF4 s)
  | .sofCmd => .ok (startFrame .cmd 0xFD s)
  | .append b => append b s
  | .overrun _ => .ok (overrun s)

/-- `SyncStep()`: with no unread byte NO_BYTE and nothing else, else the case of the oldest unread byte (R111, R119). -/
def syncStep (s : State) : Except Fault (State × Label) :=
  match s.rx with
  | [] => .ok (s, .noByte)
  | b :: _ => runByte (decodeByte s.framing.sync s.framing.bufLen b) s

/-- The meaning of IDLE.SKIP (R112). -/
def execIdleSkip (_b : Byte) (s : State) : Host.Outcome State Fault Refusal :=
  .next (idleSkip s).1

/-- The meaning of SOF.DATA (R113). -/
def execSofData (s : State) : Host.Outcome State Fault Refusal :=
  .next (startFrame .data 0xF4 s).1

/-- The meaning of SOF.CMD (R114). -/
def execSofCmd (s : State) : Host.Outcome State Fault Refusal :=
  .next (startFrame .cmd 0xFD s).1

/-- The meaning of APPEND (R116 to R118). -/
def execAppend (b : Byte) (s : State) : Host.Outcome State Fault Refusal :=
  stepOutcome (append b s)

/-- The meaning of OVERRUN (R115). -/
def execOverrun (_b : Byte) (s : State) : Host.Outcome State Fault Refusal :=
  .next (overrun s).1

end Sys2Proof.Machine
end

