-- ==== Sys2Proof/Machine/HostOps.lean ====
section
/-! DEFINITION. RESET, POLL and NOP of format H (44_host_operations.md, 70_reset_and_hazards.md). -/
namespace Sys2Proof.Machine
open Sys2Proof

/-- The writes of RESET: every register but `buf`, which keeps what it held; `RX`, `TX` and the clock are outside the core
(R290). -/
def resetRegs (s : State) : State :=
  clearTxn { s with
    framing := { s.framing with sync := .idle, bufLen := 0, bufClass := .data }
    tel := Telemetry.reset
    gates := GateConfig.reset
    fw := Firmware.reset
    conn := Connectivity.reset }

/-- The meaning of RESET: the registers, and every pulse output 0 with `req_ready = 0` (R290). -/
def execReset (s : State) : Host.Outcome State Fault Refusal :=
  .next { resetRegs s.sample with out := Outputs.quiet }

/-- The boolean result of the step a POLL made (R41, R48, R242). -/
def setFrameOk (r : Label) (s : State) : State :=
  { s with out := { s.out with frameOk := r.frameOk } }

/-- POLL after sampling: one synchronizer step, its boolean on `frame_ok` (R242). -/
def poll (s : State) : Except Fault State :=
  match syncStep s with
  | .error f => .error f
  | .ok (t, r) => .ok (setFrameOk r t)

/-- The meaning of POLL (R242). -/
def execPoll (s : State) : Host.Outcome State Fault Refusal :=
  match poll s.sample with
  | .error f => .fault f
  | .ok t => .next t

/-- The meaning of NOP: the tick passes (R243). -/
def execNop (s : State) : Host.Outcome State Fault Refusal :=
  .next s.sample

end Sys2Proof.Machine
end

