-- ==== Sys2Proof/Machine/Transactions.lean ====
section
/-! DEFINITION. The configuration transaction controller: the rows of format TF, and REQ_ACCEPT, WAIT_TICK and STAGE_ADVANCE
of format H (43_transaction.md). -/
namespace Sys2Proof.Machine
open Sys2Proof

/-- The stage that sends a command (R95). -/
def stageOf : Cmd → Stage
  | .enterCfg => .enter
  | .leaveCfg => .leave
  | .setMaxGate | .queryCfg | .engStart | .engStop | .setSens | .fwVersion | .factoryReset | .restart => .target

/-- A command frame is sent in the tick of its stage (R194, R220 to R229). -/
def sendCmd (k : Cmd) (args : List Byte) (s : State) : State :=
  send (stageOf k) k.code args s

/-- The meaning of CMD.ENTER_CFG (R220). -/
def execCmdEnterCfg (args : List Byte) (s : State) : Host.Outcome State Fault Refusal :=
  .next (sendCmd .enterCfg args s)

/-- The meaning of CMD.LEAVE_CFG (R221). -/
def execCmdLeaveCfg (args : List Byte) (s : State) : Host.Outcome State Fault Refusal :=
  .next (sendCmd .leaveCfg args s)

/-- The meaning of CMD.SET_MAX_GATE (R222). -/
def execCmdSetMaxGate (args : List Byte) (s : State) : Host.Outcome State Fault Refusal :=
  .next (sendCmd .setMaxGate args s)

/-- The meaning of CMD.QUERY_CFG (R223). -/
def execCmdQueryCfg (args : List Byte) (s : State) : Host.Outcome State Fault Refusal :=
  .next (sendCmd .queryCfg args s)

/-- The meaning of CMD.ENG_START (R224). -/
def execCmdEngStart (args : List Byte) (s : State) : Host.Outcome State Fault Refusal :=
  .next (sendCmd .engStart args s)

/-- The meaning of CMD.ENG_STOP (R225). -/
def execCmdEngStop (args : List Byte) (s : State) : Host.Outcome State Fault Refusal :=
  .next (sendCmd .engStop args s)

/-- The meaning of CMD.SET_SENS (R226). -/
def execCmdSetSens (args : List Byte) (s : State) : Host.Outcome State Fault Refusal :=
  .next (sendCmd .setSens args s)

/-- The meaning of CMD.FW_VERSION (R227). -/
def execCmdFwVersion (args : List Byte) (s : State) : Host.Outcome State Fault Refusal :=
  .next (sendCmd .fwVersion args s)

/-- The meaning of CMD.FACTORY_RESET (R228). -/
def execCmdFactoryReset (args : List Byte) (s : State) : Host.Outcome State Fault Refusal :=
  .next (sendCmd .factoryReset args s)

/-- The meaning of CMD.RESTART (R229). -/
def execCmdRestart (args : List Byte) (s : State) : Host.Outcome State Fault Refusal :=
  .next (sendCmd .restart args s)

/-- The request is latched and the three outcomes are cleared (R192). -/
def latchRequest (code : Byte) (nargs : BitVec 5) (args : Vector Byte argSlots) (s : State) : State :=
  { s with
    txn := { s.txn with
      tgtCode := code, tgtNargs := nargs, tgtArgs := latchedArgs nargs args
      resEnter := .none, resTarget := .none, resLeave := .none } }

/-- REQ_ACCEPT after sampling: the latch, then the enter-configuration-mode command (R192). -/
def acceptRequest (code : Byte) (nargs : BitVec 5) (args : Vector Byte argSlots) (s : State) : State :=
  sendCmd .enterCfg s.cfg.enterArgs (latchRequest code nargs args s)

/-- The meaning of REQ_ACCEPT (R192). -/
def execReqAccept (code : Byte) (nargs : BitVec 5) (args : Vector Byte argSlots) (s : State) :
    Host.Outcome State Fault Refusal :=
  .next (acceptRequest code nargs args s.sample)

/-- The error timeout: `txn_state` changes and the event is shown, nothing else (R200, R201, R260, R261). -/
def raiseTimeout (s : State) : State :=
  event txnTimeoutCode s.txn.awaitCode { s with txn := { s.txn with state := .timedOut } }

/-- `txn_state` after a step of a wait: an ack is observed by its label and code, a refused one not in stage ENTER (R200,
R203 to R206). -/
def observedState (t : Transaction) (r : Label) : TxnState :=
  match r with
  | .ackOk c => if c = t.awaitCode then .ackedSuccess else t.state
  | .ackStatusFail c => if c = t.awaitCode ∧ t.stage ≠ .enter then .ackedFailure else t.state
  | .noByte | .discarded | .started | .accumulating | .overrun | .dataOk | .dataEng _ | .dataLenMismatch | .dataUnknown
  | .ackLenMismatch | .ackUnknown _ => t.state

/-- The step's result is taken into the wait (R200). -/
def observe (r : Label) (s : State) : State :=
  { s with txn := { s.txn with state := observedState s.txn r } }

/-- WAIT_TICK after sampling: the deadline first, then one synchronizer step (R200, R201, R263). -/
def waitTick (s : State) : Except Fault State :=
  if deadlinePassed s then .ok (raiseTimeout s)
  else
    match syncStep s with
    | .error f => .error f
    | .ok (t, r) => .ok (observe r t)

/-- The meaning of WAIT_TICK (R200). -/
def execWaitTick (s : State) : Host.Outcome State Fault Refusal :=
  match waitTick s.sample with
  | .error f => .fault f
  | .ok t => .next t

/-- The outcome of a stage by how its wait ended (R210). STAGE_ADVANCE never fires in IDLE or SENT (R240; log 11). -/
def stageOutcome : TxnState → StageOutcome
  | .ackedSuccess => .success
  | .ackedFailure => .failure
  | .timedOut => .timeout
  | .idle | .sent => .none

/-- The outcome of the stage that ended is recorded in the register of that stage (R210). -/
def recordOutcome (o : StageOutcome) (s : State) : State :=
  match s.txn.stage with
  | .enter => { s with txn := { s.txn with resEnter := o } }
  | .target => { s with txn := { s.txn with resTarget := o } }
  | .leave => { s with txn := { s.txn with resLeave := o } }

/-- The target command of the request is sent (R211). -/
def sendTarget (s : State) : State :=
  send .target s.txn.tgtCode (targetArgs s.txn) s

/-- The leave-configuration-mode command is sent (R212). -/
def sendLeave (s : State) : State :=
  sendCmd .leaveCfg s.cfg.leaveArgs s

/-- The request ends: the response is presented and the transaction registers are cleared (R211, R213, R214). -/
def endRequest (ok : Bool) (e t l : StageOutcome) (s : State) : State :=
  clearTxn (respond ok e t l s)

/-- STAGE_ADVANCE after sampling (R210 to R213). -/
def advance (s : State) : State :=
  let o := stageOutcome s.txn.state
  let r := recordOutcome o s
  match s.txn.stage with
  | .enter => if o = .success then sendTarget r else endRequest false o .none .none r
  | .target => sendLeave r
  | .leave => endRequest (decide (s.txn.resTarget = .success)) s.txn.resEnter s.txn.resTarget o r

/-- The meaning of STAGE_ADVANCE (R210). -/
def execStageAdvance (s : State) : Host.Outcome State Fault Refusal :=
  .next (advance s.sample)

end Sys2Proof.Machine
end

