-- ==== Sys2Proof/Machine/Dispatch.lean ====
section
/-! DEFINITION. One arm per instruction, each one call of its meaning. -/
namespace Sys2Proof.Machine
open Sys2Proof

def exec (i : Instr) (s : State) : Host.Outcome State Fault Refusal :=
  match i with
  | .idleSkip b => Sys2Proof.Machine.execIdleSkip b s
  | .sofData => Sys2Proof.Machine.execSofData s
  | .sofCmd => Sys2Proof.Machine.execSofCmd s
  | .append b => Sys2Proof.Machine.execAppend b s
  | .overrun b => Sys2Proof.Machine.execOverrun b s
  | .dataEng rest => Sys2Proof.Machine.execDataEng rest s
  | .dataNormal tt md me sd se dd u => Sys2Proof.Machine.execDataNormal tt md me sd se dd u s
  | .dataUnknown p => Sys2Proof.Machine.execDataUnknown p s
  | .ackEnterCfg h st r => Sys2Proof.Machine.execAckEnterCfg h st r s
  | .ackLeaveCfg h st => Sys2Proof.Machine.execAckLeaveCfg h st s
  | .ackSetMaxGate h st => Sys2Proof.Machine.execAckSetMaxGate h st s
  | .ackQueryCfg h st r => Sys2Proof.Machine.execAckQueryCfg h st r s
  | .ackSetSens h st => Sys2Proof.Machine.execAckSetSens h st s
  | .ackFwVersion h st r => Sys2Proof.Machine.execAckFwVersion h st r s
  | .ackFactoryReset h st => Sys2Proof.Machine.execAckFactoryReset h st s
  | .ackRestart h st => Sys2Proof.Machine.execAckRestart h st s
  | .ackEngStart h st => Sys2Proof.Machine.execAckEngStart h st s
  | .ackEngStop h st => Sys2Proof.Machine.execAckEngStop h st s
  | .ackUnknown p => Sys2Proof.Machine.execAckUnknown p s
  | .cmdEnterCfg a => Sys2Proof.Machine.execCmdEnterCfg a s
  | .cmdLeaveCfg a => Sys2Proof.Machine.execCmdLeaveCfg a s
  | .cmdSetMaxGate a => Sys2Proof.Machine.execCmdSetMaxGate a s
  | .cmdQueryCfg a => Sys2Proof.Machine.execCmdQueryCfg a s
  | .cmdEngStart a => Sys2Proof.Machine.execCmdEngStart a s
  | .cmdEngStop a => Sys2Proof.Machine.execCmdEngStop a s
  | .cmdSetSens a => Sys2Proof.Machine.execCmdSetSens a s
  | .cmdFwVersion a => Sys2Proof.Machine.execCmdFwVersion a s
  | .cmdFactoryReset a => Sys2Proof.Machine.execCmdFactoryReset a s
  | .cmdRestart a => Sys2Proof.Machine.execCmdRestart a s
  | .reset => Sys2Proof.Machine.execReset s
  | .reqAccept c n a => Sys2Proof.Machine.execReqAccept c n a s
  | .poll => Sys2Proof.Machine.execPoll s
  | .nop => Sys2Proof.Machine.execNop s
  | .waitTick => Sys2Proof.Machine.execWaitTick s
  | .stageAdvance => Sys2Proof.Machine.execStageAdvance s

end Sys2Proof.Machine
end

