-- ==== Sys2Proof/Machine/Fetch.lean ====
section
/-! DEFINITION. What a tick fetches: the operation its inputs select, and how a pattern is put where the next tick runs it
(log 12, 14, 15). -/
namespace Sys2Proof.Machine
open Sys2Proof

/-- The instruction of the coming tick: the operation R240 selects on the registers before the tick and its inputs. -/
def fetchOp (s : State) : Instr := (decodeTick s.cfg.argsMax s.txn.state s.input).toInstr

/-- Cells that hold a byte sequence from an offset on. -/
def cellsFrom (k : Nat) : List Byte → Memory
  | [] => []
  | b :: bs => (k, b) :: cellsFrom (k + 1) bs

/-- The coming tick presents these inputs, at the clock value the state has. -/
def presentInput (t : TickInput) (s : State) : State :=
  { s with inputs := { t with now := s.now } :: s.inputs }

/-- The coming tick is a POLL that consumes this byte. -/
def presentByte (b : Byte) (s : State) : State :=
  presentInput { quietInput 0 with poll := true }
    { s with rx := b :: s.rx, txn := { s.txn with state := .idle } }

/-- The coming tick is a POLL that consumes the last byte of this frame, the others being in the frame buffer. -/
def presentFrame (cls : FrameClass) (f : List Byte) (s : State) : State :=
  presentByte (f.getLastD 0)
    { s with framing := {
        sync := .accum, buf := cellsFrom 0 f.dropLast, bufLen := BitVec.ofNat 6 (f.length - 1), bufClass := cls } }

/-- The enter command with these arguments, those above `ARGS_MAX` left out. -/
def withEnterArgs (a : List Byte) (cfg : Config) : Config :=
  { cfg with enterArgs := a.take cfg.argsMax.val, enterArgs_le := by simp }

/-- The leave command with these arguments, those above `ARGS_MAX` left out. -/
def withLeaveArgs (a : List Byte) (cfg : Config) : Config :=
  { cfg with leaveArgs := a.take cfg.argsMax.val, leaveArgs_le := by simp }

/-- The coming tick sends this command: REQ_ACCEPT for enter, the STAGE_ADVANCE that ends stage TARGET for leave, the one
that ends stage ENTER for a target command (R95). -/
def presentCommand (code : Byte) (args : List Byte) (s : State) : State :=
  if code = Cmd.enterCfg.code then
    presentInput { quietInput 0 with reqValid := true, reqCode := 0x60 }
      { s with cfg := withEnterArgs args s.cfg, txn := Transaction.cleared }
  else if code = Cmd.leaveCfg.code then
    presentInput (quietInput 0)
      { s with
        cfg := withLeaveArgs args s.cfg
        txn := { s.txn with state := .ackedSuccess, stage := .target } }
  else
    presentInput (quietInput 0)
      { s with txn := { s.txn with
          state := .ackedSuccess, stage := .enter, tgtCode := code
          tgtNargs := BitVec.ofNat 5 args.length, tgtArgs := vecOf argSlots args } }

/-- The state in which the coming tick runs this pattern. -/
def present (c : Code) (s : State) : State :=
  match c with
  | .tick _ txn t => presentInput t { s with txn := { s.txn with state := txn } }
  | .byte st len b => presentByte b { s with framing := { s.framing with sync := st, bufLen := len } }
  | .data f => presentFrame .data f s
  | .ack f => presentFrame .cmd f s
  | .cmd f => presentCommand ((payloadOf f).headD 0) ((payloadOf f).drop 2) s

end Sys2Proof.Machine
end

