-- ==== Sys2Proof/Machine/Step.lean ====
section
/-! DEFINITION. One tick of the core: fetch the operation its inputs select, run it (R7, R240). -/
namespace Sys2Proof.Machine
open Sys2Proof

/-- One tick: exactly one operation, the one R240 selects (log 12). -/
def step (s : State) : Host.Outcome State Fault Refusal :=
  exec (fetchOp s) s

/-- The state with a word of opcode_table.json placed where the next step runs it: the tick's inputs for format H, the
oldest unread byte of a POLL for format B, a frame whose last byte a POLL consumes for DF and CF, a transaction about to
send for TF (log 14, 15). -/
def State.withFetchWord (s : State) (nbits w : Nat) : State :=
  present (codeOfWord nbits w) s

end Sys2Proof.Machine
end

