-- ==== Sys2Proof/Safety.lean ====
section
/-! DEFINITION. The terms claims are stated in: runs, what a part of a tick and a tick leave alone, what the frame buffer
holds, the invariants of the framing, transaction and Sensor State registers and of the timestamps, and a fair environment. -/
namespace Sys2Proof.Machine
open Sys2Proof

/-! ## Runs -/

/-- `k` ticks, stopping at the first fault or refusal. -/
def run : Nat → State → Host.Outcome State Fault Refusal
  | 0, s => .next s
  | k + 1, s =>
    match step s with
    | .next t => run k t
    | .fault f => .fault f
    | .refused r => .refused r

/-! ## Frames -/

/-- Sensor State is the same: Telemetry State, Configuration State and Connectivity (R3). -/
def SameSensor (s t : State) : Prop :=
  t.tel = s.tel ∧ t.gates = s.gates ∧ t.fw = s.fw ∧ t.conn = s.conn

/-- Every byte of the frame buffer reads the same. -/
def SameBytes (s t : State) : Prop :=
  ∀ a, Memory.read t.framing.buf a = Memory.read s.framing.buf a

/-- Every byte of the frame buffer but the one at `a` reads the same, and that one reads `v`. -/
def StoredByte (a : Nat) (v : Byte) (s t : State) : Prop :=
  Memory.read t.framing.buf a = some v ∧
    ∀ k, k ≠ a → Memory.read t.framing.buf k = Memory.read s.framing.buf k

/-- What no part of a tick (a row of format B, DF, CF or TF) touches: the parameters, the clock sample and the inputs. -/
def SameTick (s t : State) : Prop :=
  t.cfg = s.cfg ∧ t.now = s.now ∧ t.inputs = s.inputs ∧ t.ticks = s.ticks

/-- What every tick does to the parameters, the clock sample and the inputs. -/
def NextTick (s t : State) : Prop :=
  t.cfg = s.cfg ∧ t.now = s.input.now ∧ t.inputs = s.inputs.tail ∧ t.ticks = s.ticks + 1

/-- `FrameReset()` and nothing else of the framing registers (R123). -/
def FramingReset (s t : State) : Prop :=
  t.framing.sync = .idle ∧ t.framing.bufLen = 0 ∧ t.framing.bufClass = s.framing.bufClass ∧ SameBytes s t

/-- The event port shows a label and its information, every other output is as before (R49). -/
def ShowsEvent (label : BitVec 4) (info : Byte) (s t : State) : Prop :=
  t.out = { s.out with evValid := true, evLabel := label, evInfo := info }

/-! ## The frame buffer -/

/-- The bytes of the frame in progress: those below `buf_len` that have been written (R22, R23). -/
def heldBytes (s : State) : List Byte :=
  (List.range s.framing.bufLen.toNat).filterMap (Memory.read s.framing.buf)

/-- The frame in progress is these bytes, each of them written. -/
abbrev BufferHolds (s : State) (bytes : List Byte) : Prop :=
  s.framing.bufLen.toNat = bytes.length ∧ heldBytes s = bytes

/-- The state after an append has stored its byte, before the validity check (R116). -/
def afterStore (b : Byte) (s : State) : State :=
  { s with
    rx := s.rx.tail
    out := { s.out with rxReady := true }
    framing := { s.framing with
      buf := Memory.write s.framing.buf s.framing.bufLen.toNat b
      bufLen := s.framing.bufLen + 1 } }

/-- The framing invariants (a), (b), (c) and (e) of R25, with the buffer in canonical form and every byte below `buf_len`
written. -/
abbrev FramingInv (s : State) : Prop :=
  (s.framing.sync = .idle ↔ s.framing.bufLen = 0) ∧
  s.framing.bufLen.toNat ≤ bufCap ∧
  Memory.wf s.framing.buf = true ∧
  (heldBytes s).length = s.framing.bufLen.toNat ∧
  (s.framing.sync = .accum → s.framing.bufClass = .data → Memory.read s.framing.buf 0 = some 0xF4) ∧
  (s.framing.sync = .accum → s.framing.bufClass = .cmd → Memory.read s.framing.buf 0 = some 0xFD) ∧
  (s.framing.sync = .accum → minCheckLen ≤ s.framing.bufLen.toNat → hasMarkers s.framing.bufClass (heldBytes s) = false)

/-! ## The transaction registers -/

/-- The code a stage awaits is the one it sent (R194). -/
abbrev AwaitsItsCode (t : Transaction) : Prop :=
  (t.stage = .enter → t.awaitCode = 0xFF) ∧
  (t.stage = .target → t.awaitCode = t.tgtCode) ∧
  (t.stage = .leave → t.awaitCode = 0xFE)

/-- The stage outcomes so far: those of the stages before the current one (R38, R210 to R213). -/
abbrev OutcomesSoFar (t : Transaction) : Prop :=
  (t.stage = .enter → t.resEnter = .none) ∧
  (t.stage ≠ .enter → t.resEnter = .success) ∧
  (t.stage ≠ .leave → t.resTarget = .none) ∧
  (t.stage = .leave → t.resTarget ≠ .none) ∧
  t.resLeave = .none

/-- In `IDLE` every transaction register is clear (R36 to R38, R214); while a request is in progress the latched request is
legal and 0 above its arguments (R37, R191), the awaited code is that of the stage, a failed ack is never seen in stage
ENTER (R203, R215) and the outcomes are those of the stages that ended. -/
abbrev TxnInv (s : State) : Prop :=
  (s.txn.state = .idle → s.txn = Transaction.cleared) ∧
  (s.txn.state ≠ .idle →
    legalRequest s.cfg.argsMax s.txn.tgtCode s.txn.tgtNargs = true ∧
    (∀ k (h : k < argSlots), s.txn.tgtNargs.toNat ≤ k → s.txn.tgtArgs[k] = 0) ∧
    AwaitsItsCode s.txn ∧
    (s.txn.state = .ackedFailure → s.txn.stage ≠ .enter) ∧
    OutcomesSoFar s.txn)

/-! ## Sensor State -/

/-- A group whose valid flag is clear holds its reset values (R33, R254), and a group that has been written since reset has
stamped connectivity (R32, R144, R163). -/
abbrev ValidInv (s : State) : Prop :=
  (s.tel.valid = false → s.tel = Telemetry.reset) ∧
  (s.gates.valid = false → s.gates = GateConfig.reset) ∧
  (s.fw.valid = false → s.fw = Firmware.reset) ∧
  (s.conn.valid = false → s.conn = Connectivity.reset) ∧
  ((s.tel.valid || s.gates.valid || s.fw.valid) = true → s.conn.valid = true)

/-! ## The clock and the environment -/

/-- The clock sample and every timestamp are values of `CLOCK_W` bits (R26, R32, R36, R46). -/
abbrev ClockInv (s : State) : Prop :=
  s.now < 2 ^ s.cfg.clockW ∧ s.tel.ts < 2 ^ s.cfg.clockW ∧ s.conn.ts < 2 ^ s.cfg.clockW ∧ s.txn.tSend < 2 ^ s.cfg.clockW

/-- The state when the environment makes these moves at its next `n` ticks. -/
def State.under (env : Nat → TickInput) (n : Nat) (s : State) : State :=
  { s with inputs := (List.range n).map env }

/-- The fairness assumption of R306 on an environment that ticks for ever: its clock is that of a count of milliseconds which
never decreases, eventually exceeds any bound, and does not outrun the clock's width between two samples that a wait compares
(R46; log 24). The earlier of the two is the sample at the send, and the wait goes on while fewer than `ACK_TIMEOUT_MS` have
passed. -/
def FairClock (cfg : Config) (env : Nat → TickInput) : Prop :=
  ∃ time : Nat → Nat,
    (∀ k, time k ≤ time (k + 1)) ∧
    (∀ k, (env k).now % 2 ^ cfg.clockW = time k % 2 ^ cfg.clockW) ∧
    (∀ bound, ∃ k, bound ≤ time k) ∧
    ∀ j k, j ≤ k → time k < time j + cfg.ackTimeoutMs → time (k + 1) < time j + 2 ^ cfg.clockW

/-! ## Safety -/

/-- A safe tick answers a next state: no read of the frame buffer at or above `buf_len` or of an unwritten byte, no write
past its end, no refusal (R66). -/
def SafeTick (s : State) : Prop :=
  ∃ t, step s = .next t

end Sys2Proof.Machine
end

