-- ==== Sys2Proof/Certificates/Slice0/Obligations.lean ====
section
/-! DEFINITION. The statements for the provers. `s.sample` is the state with a tick's inputs taken in; what that is, is said
by `Obligations.TickTakesItsInputs` and `Obligations.NopOnlyTakesInputs`. -/
open Sys2Proof Sys2Proof.Machine

/-! ## Decoding and encoding -/

/-- Decoding an encoded well-formed instruction gives it back (R82, R83, R85, R93, R94, R95, R240). What a pattern holds
beside the bytes (the framing or transaction state, the direction) is the model's (log 12, 13). -/
def Obligations.DecodeEncodeRoundTrip : Prop :=
  ∀ i : Instr, i.wf = true → decode (encode i) = .ok i

/-- A frame that decodes is the encoding of what it decodes to: no byte of a frame is dropped (R82, R83). -/
def Obligations.EncodeDecodeFrames : Prop :=
  ∀ (f : List Byte) (i : Instr),
    (decode (.data f) = .ok i → encode i = .data f) ∧
    (decode (.ack f) = .ok i → encode i = .ack f) ∧
    (decode (.cmd f) = .ok i → encode i = .cmd f)

/-- The decoder answers only well-formed instructions (R84, R85, R93, R94, R191, R195). -/
def Obligations.DecodeAnswersWellFormed : Prop :=
  ∀ (c : Code) (i : Instr), decode c = .ok i → i.wf = true

/-- A frame of 8 to 40 bytes with its markers is rejected for its length exactly when the declared length is not the
observed length less 10, on unbounded integers (R124, R142, R177). Unbounded integers and the check on command frames are
the spec's decisions D4 and D5. -/
def Obligations.FrameRejectedIffLengthDisagrees : Prop :=
  ∀ f : List Byte, 8 ≤ f.length → f.length ≤ 40 →
    (f.take 4 = [0xF4, 0xF3, 0xF2, 0xF1] → f.drop (f.length - 4) = [0xF8, 0xF7, 0xF6, 0xF5] →
      (decode (.data f) = .error .lengthMismatch ↔ (f.getD 4 0).toNat + 256 * (f.getD 5 0).toNat + 10 ≠ f.length)) ∧
    (f.take 4 = [0xFD, 0xFC, 0xFB, 0xFA] → f.drop (f.length - 4) = [0x04, 0x03, 0x02, 0x01] →
      (decode (.ack f) = .error .lengthMismatch ↔ (f.getD 4 0).toNat + 256 * (f.getD 5 0).toNat + 10 ≠ f.length))

/-- A few patterns written out from the spec's examples decode to what they stand for (R85, R143, R144, R165, R175, R221). -/
def Obligations.WrittenWordsDecode : Prop :=
  decode (.data [0xF4, 0xF3, 0xF2, 0xF1, 0x0D, 0x00, 0x02, 0xAA, 0x03, 0x64, 0x00, 0x32, 0x14, 0x00, 0x19, 0x19, 0x00, 0x55,
    0x00, 0xF8, 0xF7, 0xF6, 0xF5]) = .ok (.dataNormal 0x03 100 50 20 25 25 0) ∧
  decode (.data [0xF4, 0xF3, 0xF2, 0xF1, 0x03, 0x00, 0x01, 0xAA, 0x02, 0xF8, 0xF7, 0xF6, 0xF5]) = .ok (.dataEng [0x02]) ∧
  decode (.ack [0xFD, 0xFC, 0xFB, 0xFA, 0x04, 0x00, 0xFE, 0x00, 0x00, 0x00, 0x04, 0x03, 0x02, 0x01]) =
    .ok (.ackLeaveCfg 0 0) ∧
  decode (.ack [0xFD, 0xFC, 0xFB, 0xFA, 0x04, 0x00, 0x65, 0x00, 0x00, 0x00, 0x04, 0x03, 0x02, 0x01]) =
    .ok (.ackUnknown [0x65, 0x00, 0x00, 0x00]) ∧
  decode (.cmd [0xFD, 0xFC, 0xFB, 0xFA, 0x02, 0x00, 0xFE, 0x00, 0x04, 0x03, 0x02, 0x01]) = .ok (.cmdLeaveCfg []) ∧
  decode (.byte .idle 0 0xF4) = .ok .sofData

/-- In IDLE the byte's whole value is the opcode (R85). In ACCUM every byte is appended whatever its value, start markers
too, but at a full buffer it overruns (R115, R116, R121, R263). That the byte is dropped at a full buffer is the spec's
decision D3. -/
def Obligations.ByteSelectsRow : Prop :=
  ∀ (len : BitVec 6) (b : Byte),
    decode (.byte .idle len 0xF4) = .ok .sofData ∧
    decode (.byte .idle len 0xFD) = .ok .sofCmd ∧
    (b ≠ 0xF4 → b ≠ 0xFD → decode (.byte .idle len b) = .ok (.idleSkip b)) ∧
    (len.toNat = 40 → decode (.byte .accum len b) = .ok (.overrun b)) ∧
    (len.toNat ≠ 40 → decode (.byte .accum len b) = .ok (.append b))

/-! ## The tick -/

/-- A tick runs the instruction its inputs decode to, which is the operation the lines of R240 select in their order. The
order is the spec's decision D2. -/
def Obligations.StepRunsSelectedOperation : Prop :=
  ∀ s : State,
    (∀ i, decode (.tick s.cfg.argsMax s.txn.state s.input) = .ok i → step s = exec i s) ∧
    (s.input.rst = true → step s = exec .reset s) ∧
    (s.input.rst = false → s.txn.state = .idle →
      (s.input.reqValid = true ∧ s.input.reqCode ∈ [0x60, 0x61, 0x62, 0x63, 0x64, 0xA0, 0xA2, 0xA3] ∧
          s.input.reqNargs.toNat ≤ s.cfg.argsMax.val →
        step s = exec (.reqAccept s.input.reqCode s.input.reqNargs s.input.reqArgs) s) ∧
      (¬(s.input.reqValid = true ∧ s.input.reqCode ∈ [0x60, 0x61, 0x62, 0x63, 0x64, 0xA0, 0xA2, 0xA3] ∧
          s.input.reqNargs.toNat ≤ s.cfg.argsMax.val) →
        (s.input.poll = true → step s = exec .poll s) ∧ (s.input.poll = false → step s = exec .nop s))) ∧
    (s.input.rst = false → s.txn.state = .sent → step s = exec .waitTick s) ∧
    (s.input.rst = false → s.txn.state ∈ [.ackedSuccess, .ackedFailure, .timedOut] → step s = exec .stageAdvance s)

/-- Every tick takes in its own inputs and no other: the clock is sampled once, at `CLOCK_W` bits, which every timestamp
then keeps to, and the parameters never change (R39, R46). The list of coming inputs is the model's (log 4). One sample a
tick is the spec's decision D29, the width a parameter (D13). One sample a tick is the spec's decision D29. -/
def Obligations.TickTakesItsInputs : Prop :=
  ∀ s t : State, step s = .next t → NextTick s t ∧ t.now < 2 ^ t.cfg.clockW ∧ (ClockInv s → ClockInv t)

/-- An illegal request is refused silently: the tick is that of the same inputs with `req_valid` 0 (R191). The spec's
decision D19; the list of inputs is the model's (log 4). -/
def Obligations.IllegalRequestIsNoRequest : Prop :=
  ∀ (s : State) (i : TickInput) (later : List TickInput), s.inputs = i :: later →
    ¬(i.reqCode ∈ [0x60, 0x61, 0x62, 0x63, 0x64, 0xA0, 0xA2, 0xA3] ∧ i.reqNargs.toNat ≤ s.cfg.argsMax.val) →
    step s = step { s with inputs := { i with reqValid := false } :: later }

/-- While a request is in progress `poll` and the request port have no effect (R216, R240). The spec's decision D31; the
list of inputs is the model's (log 4). -/
def Obligations.BusyIgnoresPollAndRequest : Prop :=
  ∀ (s : State) (i : TickInput) (later : List TickInput) (p v : Bool) (c : Byte) (n : BitVec 5) (a : Vector Byte 18),
    s.txn.state ≠ .idle → s.inputs = i :: later →
    step s = step { s with
      inputs := { i with poll := p, reqValid := v, reqCode := c, reqNargs := n, reqArgs := a } :: later }

/-- `req_ready` is a function of `txn_state` before the tick and of `rst` (R47, R244). The port is the spec's decision D19.
-/
def Obligations.RequestReadyOnlyWhenIdle : Prop :=
  ∀ s t : State, step s = .next t → (t.out.reqReady = true ↔ s.txn.state = .idle ∧ s.input.rst = false)

/-- `frame_ok` is 1 exactly in a POLL whose step ended DATA_OK or ACK_OK (R41, R48; the labels' codes are R40's). The
labels' numbers and the tick of validity are the spec's decisions D12 and D30. -/
def Obligations.FrameOkOnlyForParsedFrames : Prop :=
  ∀ s t : State, step s = .next t →
    (t.out.frameOk = true ↔
      decode (.tick s.cfg.argsMax s.txn.state s.input) = .ok .poll ∧ t.out.evValid = true ∧ (t.out.evLabel = 5 ∨ t.out.evLabel = 9))

/-- A tick consumes at most one byte, the oldest unread, and `rx_ready` says whether it did; bytes that arrived in the tick
are behind the backlog (R44, R67). The port is the spec's decision D1; that arrivals come before the operation is the
model's (log 5). -/
def Obligations.AtMostOneByteConsumed : Prop :=
  ∀ s t : State, step s = .next t →
    (t.out.rxReady = false ∧ t.rx = s.rx ++ s.input.arrivals) ∨
    (t.out.rxReady = true ∧ ∃ b, b :: t.rx = s.rx ++ s.input.arrivals)

/-- A tick writes at most one command frame, whole, of 12 to 30 bytes, and the transmit port shows it; two frames are never
written in one tick (R42, R45, R195). The one-tick write is the spec's decision D18. -/
def Obligations.AtMostOneFrameSent : Prop :=
  ∀ s t : State, step s = .next t →
    (t.out.txValid = false ∧ t.tx = s.tx) ∨
    (t.out.txValid = true ∧ ∃ (code : Byte) (args : List Byte), args.length ≤ 18 ∧ t.tx = s.tx ++ commandFrame code args ∧
      (commandFrame code args).length = 12 + args.length ∧ t.out.txLen.toNat = 12 + args.length ∧
      ∀ k (h : k < 30), t.out.txBytes[k] = (commandFrame code args).getD k 0)

/-! ## The rows of format B -/

/-- IDLE.SKIP: a byte other than the start markers is consumed and nothing else of the core changes (R112). -/
def Obligations.IdleSkipDiscards : Prop :=
  ∀ (b : Byte) (s : State), s.framing.sync = .idle → b ≠ 0xF4 → b ≠ 0xFD →
    decode (.byte s.framing.sync s.framing.bufLen b) = .ok (.idleSkip b) ∧
    ∃ t, exec (.idleSkip b) s = .next t ∧
      t.framing = s.framing ∧ SameSensor s t ∧ t.txn = s.txn ∧ SameTick s t ∧ t.rx = s.rx.tail ∧ t.tx = s.tx ∧
      t.out = { s.out with rxReady := true, evValid := true, evLabel := 1, evInfo := 0 }

/-- SOF.DATA and SOF.CMD: the start byte is stored at offset 0 and the frame's class is set (R113, R114). Storing the start
byte is derived by the spec; label numbers are its decision D12. -/
def Obligations.StartByteStartsFrame : Prop :=
  ∀ s : State, ∀ p ∈ [(Instr.sofData, (0xF4 : Byte), FrameClass.data), (Instr.sofCmd, 0xFD, FrameClass.cmd)],
    ∃ t, exec p.1 s = .next t ∧
      t.framing.sync = .accum ∧ t.framing.bufLen = 1 ∧ t.framing.bufClass = p.2.2 ∧ StoredByte 0 p.2.1 s t ∧
      SameSensor s t ∧ t.txn = s.txn ∧ SameTick s t ∧ t.rx = s.rx.tail ∧ t.tx = s.tx ∧
      t.out = { s.out with rxReady := true, evValid := true, evLabel := 2, evInfo := 0 }

/-- OVERRUN: the byte is consumed and dropped whatever it is, the framing registers are reset (R115, R261, R264). The spec's
decision D3. -/
def Obligations.OverrunDropsByte : Prop :=
  ∀ (b : Byte) (s : State),
    ∃ t, exec (.overrun b) s = .next t ∧
      FramingReset s t ∧ SameSensor s t ∧ t.txn = s.txn ∧ SameTick s t ∧ t.rx = s.rx.tail ∧ t.tx = s.tx ∧
      t.out = { s.out with rxReady := true, evValid := true, evLabel := 4, evInfo := 0 }

/-- APPEND that completes no frame: the byte is stored at `buf_len`, which counts one more (R116, R117). -/
def Obligations.AppendAccumulates : Prop :=
  ∀ (b : Byte) (bytes : List Byte) (s : State), s.framing.sync = .accum → BufferHolds s bytes → bytes.length < 40 →
    (bytes.length + 1 < 8 ∨ hasMarkers s.framing.bufClass (bytes ++ [b]) = false) →
    ∃ t, exec (.append b) s = .next t ∧
      t.framing.sync = .accum ∧ t.framing.bufClass = s.framing.bufClass ∧ StoredByte s.framing.bufLen.toNat b s t ∧
      BufferHolds t (bytes ++ [b]) ∧
      SameSensor s t ∧ t.txn = s.txn ∧ SameTick s t ∧ t.rx = s.rx.tail ∧ t.tx = s.tx ∧
      t.out = { s.out with rxReady := true, evValid := true, evLabel := 3, evInfo := 0 }

/-- APPEND that completes a consistent frame stores its byte and runs the row the frame decodes to (R116, R118, R140, R160).
That the frame is a row of its own, run on the state after the store, and that its direction makes it an ack, is the model's
(log 12, 13, DEDUCED). -/
def Obligations.AppendRunsDecodedFrame : Prop :=
  ∀ (b : Byte) (bytes : List Byte) (s : State) (i : Instr), s.framing.sync = .accum → BufferHolds s bytes →
    (s.framing.bufClass = .data → decode (.data (bytes ++ [b])) = .ok i → exec (.append b) s = exec i (afterStore b s)) ∧
    (s.framing.bufClass = .cmd → decode (.ack (bytes ++ [b])) = .ok i → exec (.append b) s = exec i (afterStore b s))

/-- APPEND that completes a frame whose declared length disagrees ends in length-mismatch and writes no Sensor State,
whatever the tag, the code or the status (R124, R142, R177, R178, R261). The check on command frames and the order of the
tests are the spec's decisions D5 and D6. -/
def Obligations.AppendRejectsLengthMismatch : Prop :=
  ∀ (b : Byte) (bytes : List Byte) (s : State), s.framing.sync = .accum → BufferHolds s bytes →
    7 ≤ bytes.length → bytes.length < 40 → hasMarkers s.framing.bufClass (bytes ++ [b]) = true →
    ((bytes ++ [b]).getD 4 0).toNat + 256 * ((bytes ++ [b]).getD 5 0).toNat + 10 ≠ bytes.length + 1 →
    ∃ t, exec (.append b) s = .next t ∧
      t.framing.sync = .idle ∧ t.framing.bufLen = 0 ∧ t.framing.bufClass = s.framing.bufClass ∧
      StoredByte s.framing.bufLen.toNat b s t ∧
      SameSensor s t ∧ t.txn = s.txn ∧ SameTick s t ∧ t.rx = s.rx.tail ∧ t.tx = s.tx ∧
      t.out = { s.out with
        rxReady := true, evValid := true, evLabel := if s.framing.bufClass = .data then 7 else 11, evInfo := 0 }

/-! ## The rows of format DF -/

/-- DATA.NORMAL: the ten writes of R144, all together; the byte at offset 16 takes no part. The fields' offsets and the
valid flags are the spec's decisions D8 and D22. -/
def Obligations.NormalFrameWritesTelemetry : Prop :=
  ∀ (tt : Byte) (md : BitVec 16) (me : Byte) (sd : BitVec 16) (se dd u : Byte) (s : State),
    ∃ t, exec (.dataNormal tt md me sd se dd u) s = .next t ∧
      t.tel.tgtType = tt ∧ t.tel.movDist = md ∧ t.tel.movEnergy = me ∧ t.tel.staDist = sd ∧ t.tel.staEnergy = se ∧
      t.tel.detDist = dd ∧ t.tel.ts = s.now ∧ t.tel.valid = true ∧ t.conn.ts = s.now ∧ t.conn.valid = true ∧
      t.gates = s.gates ∧ t.fw = s.fw ∧
      FramingReset s t ∧ t.txn = s.txn ∧ SameTick s t ∧ t.rx = s.rx ∧ t.tx = s.tx ∧ ShowsEvent 5 0 s t

/-- DATA.ENG: the target-type byte, at offset 8 of the frame, is reported and no register but framing is written; a frame
with `L = 2` reports the first trailer byte (R143). The spec's decision D7. -/
def Obligations.EngineeringFrameWritesNoRegister : Prop :=
  ∀ (rest : List Byte) (s : State),
    ∃ t, exec (.dataEng rest) s = .next t ∧
      FramingReset s t ∧ SameSensor s t ∧ t.txn = s.txn ∧ SameTick s t ∧ t.rx = s.rx ∧ t.tx = s.tx ∧
      ShowsEvent 6 ((rest ++ [0xF8, 0xF7, 0xF6, 0xF5]).getD 0 0) s t

/-- DATA.UNKNOWN: every consistent data frame that neither known shape takes is this row, and it writes nothing (R145). -/
def Obligations.UnknownDataFrameWritesNothing : Prop :=
  ∀ (p : List Byte) (s : State), p.length ≤ 30 →
    p.take 2 ≠ [0x01, 0xAA] → ¬(p.take 2 = [0x02, 0xAA] ∧ p.length = 13 ∧ p.drop 11 = [0x55, 0x00]) →
    decode (.data (frameOf .data p)) = .ok (.dataUnknown p) ∧
    ∃ t, exec (.dataUnknown p) s = .next t ∧
      FramingReset s t ∧ SameSensor s t ∧ t.txn = s.txn ∧ SameTick s t ∧ t.rx = s.rx ∧ t.tx = s.tx ∧ ShowsEvent 8 0 s t

/-! ## The rows of format CF -/

/-- Every ack of the ten shapes on zero status stamps connectivity and ends with the label ACK_OK and its code, whatever the
transaction registers hold (R163); for the eight that carry no decoded field that, with the framing registers reset (R118),
is all it does. The label's number is the spec's decision D12 (R40; log 23). That `frame_ok` is then true in a POLL is
`Obligations.FrameOkOnlyForParsedFrames`. -/
def Obligations.SuccessfulAcksStampConnectivity : Prop :=
  ∀ (h : Byte) (r : Vector Byte 4) (r24 : Vector Byte 24) (r8 : Vector Byte 8) (s : State),
    (∀ p ∈ [(Instr.ackEnterCfg h 0 r, (0xFF : Byte)), (.ackLeaveCfg h 0, 0xFE), (.ackSetMaxGate h 0, 0x60),
        (.ackSetSens h 0, 0x64), (.ackFactoryReset h 0, 0xA2), (.ackRestart h 0, 0xA3), (.ackEngStart h 0, 0x62),
        (.ackEngStop h 0, 0x63)],
      ∃ t, exec p.1 s = .next t ∧
        t.conn.ts = s.now ∧ t.conn.valid = true ∧ t.tel = s.tel ∧ t.gates = s.gates ∧ t.fw = s.fw ∧
        FramingReset s t ∧ t.txn = s.txn ∧ SameTick s t ∧ t.rx = s.rx ∧ t.tx = s.tx ∧ ShowsEvent 9 p.2 s t) ∧
    ∀ p ∈ [(Instr.ackQueryCfg h 0 r24, (0x61 : Byte)), (.ackFwVersion h 0 r8, 0xA0)],
      ∃ t, exec p.1 s = .next t ∧ t.conn.ts = s.now ∧ t.conn.valid = true ∧ ShowsEvent 9 p.2 s t

/-- ACK.QUERY_CFG on zero status: the gate registers, both arrays and the idle time from the result bytes at `QCFG_BASE`
(offset 10 is the first), and the connectivity stamp (R166; the place of `QCFG_BASE` is the spec's decision D9). -/
def Obligations.QueryConfigAckWritesGates : Prop :=
  ∀ (h : Byte) (r : Vector Byte 24) (s : State) (q : Nat), q + 10 = s.cfg.qcfgBase.val →
    ∃ t, exec (.ackQueryCfg h 0 r) s = .next t ∧
      some t.gates.maxGate = r[q]? ∧ some t.gates.maxMovGate = r[q + 1]? ∧ some t.gates.maxStaGate = r[q + 2]? ∧
      (∀ g, g < 9 → t.gates.motSens[g]? = r[q + 3 + g]?) ∧ (∀ g, g < 9 → t.gates.staSens[g]? = r[q + 12 + g]?) ∧
      t.gates.idleTime.toNat = (r.getD (q + 21) 0).toNat + 256 * (r.getD (q + 22) 0).toNat ∧ t.gates.valid = true ∧
      t.conn.ts = s.now ∧ t.conn.valid = true ∧ t.tel = s.tel ∧ t.fw = s.fw ∧
      FramingReset s t ∧ t.txn = s.txn ∧ SameTick s t ∧ t.rx = s.rx ∧ t.tx = s.tx ∧ ShowsEvent 9 0x61 s t

/-- ACK.FW_VERSION on zero status: minor, major and build from the result bytes at `FWV_BASE` (offset 10 is the first), and
the connectivity stamp (R168; the place of `FWV_BASE` is the spec's decision D10). -/
def Obligations.FirmwareAckWritesVersion : Prop :=
  ∀ (h : Byte) (r : Vector Byte 8) (s : State) (f : Nat), f + 10 = s.cfg.fwvBase.val →
    ∃ t, exec (.ackFwVersion h 0 r) s = .next t ∧
      some t.fw.minor = r[f]? ∧ some t.fw.major = r[f + 1]? ∧
      t.fw.build.toNat = (r.getD (f + 2) 0).toNat + 256 * (r.getD (f + 3) 0).toNat + 65536 * (r.getD (f + 4) 0).toNat +
        16777216 * (r.getD (f + 5) 0).toNat ∧
      t.fw.valid = true ∧
      t.conn.ts = s.now ∧ t.conn.valid = true ∧ t.tel = s.tel ∧ t.gates = s.gates ∧
      FramingReset s t ∧ t.txn = s.txn ∧ SameTick s t ∧ t.rx = s.rx ∧ t.tx = s.tx ∧ ShowsEvent 9 0xA0 s t

/-- An ack of any of the ten shapes with a non-zero status word is status-failure and writes nothing; either byte alone is
enough, since the word is zero only if both are (R176). -/
def Obligations.NonZeroStatusAckWritesNothing : Prop :=
  ∀ (h : Byte) (st : BitVec 16) (r4 : Vector Byte 4) (r24 : Vector Byte 24) (r8 : Vector Byte 8) (s : State), st ≠ 0 →
    ∀ p ∈ [(Instr.ackEnterCfg h st r4, (0xFF : Byte)), (.ackLeaveCfg h st, 0xFE), (.ackSetMaxGate h st, 0x60),
        (.ackQueryCfg h st r24, 0x61), (.ackSetSens h st, 0x64), (.ackFwVersion h st r8, 0xA0),
        (.ackFactoryReset h st, 0xA2), (.ackRestart h st, 0xA3), (.ackEngStart h st, 0x62), (.ackEngStop h st, 0x63)],
      ∃ t, exec p.1 s = .next t ∧
        FramingReset s t ∧ SameSensor s t ∧ t.txn = s.txn ∧ SameTick s t ∧ t.rx = s.rx ∧ t.tx = s.tx ∧
        ShowsEvent 10 p.2 s t

/-- ACK.UNKNOWN: every consistent command-class frame whose pair (L, code) is none of the ten is this row, whatever its
status bytes hold; it writes nothing and reports the byte at offset 6 (R175). -/
def Obligations.UnknownAckWritesNothing : Prop :=
  ∀ (p : List Byte) (s : State), p.length ≤ 30 →
    (p.length, (p ++ [0x04, 0x03, 0x02, 0x01]).getD 0 0) ∉
      [(8, (0xFF : Byte)), (4, 0xFE), (4, 0x60), (28, 0x61), (4, 0x64), (12, 0xA0), (4, 0xA2), (4, 0xA3), (4, 0x62), (4, 0x63)] →
    decode (.ack (frameOf .cmd p)) = .ok (.ackUnknown p) ∧
    ∃ t, exec (.ackUnknown p) s = .next t ∧
      FramingReset s t ∧ SameSensor s t ∧ t.txn = s.txn ∧ SameTick s t ∧ t.rx = s.rx ∧ t.tx = s.tx ∧
      ShowsEvent 12 ((p ++ [0x04, 0x03, 0x02, 0x01]).getD 0 0) s t

/-! ## The rows of format TF -/

/-- Each of the ten commands sends its frame whole, records the send time and awaits its own code in its stage; no other
register changes (R193, R194, R195, R220 to R229). The spec's decision D18. -/
def Obligations.CommandRowsSendFrames : Prop :=
  ∀ (a : List Byte) (s : State), a.length ≤ 18 →
    ∀ p ∈ [(Instr.cmdEnterCfg a, (0xFF : Byte), Stage.enter), (.cmdLeaveCfg a, 0xFE, .leave),
        (.cmdSetMaxGate a, 0x60, .target), (.cmdQueryCfg a, 0x61, .target), (.cmdEngStart a, 0x62, .target),
        (.cmdEngStop a, 0x63, .target), (.cmdSetSens a, 0x64, .target), (.cmdFwVersion a, 0xA0, .target),
        (.cmdFactoryReset a, 0xA2, .target), (.cmdRestart a, 0xA3, .target)],
      ∃ t, exec p.1 s = .next t ∧
        t.tx = s.tx ++ ([0xFD, 0xFC, 0xFB, 0xFA, BitVec.ofNat 8 (2 + a.length), 0x00, p.2.1, 0x00] ++ a ++
          [0x04, 0x03, 0x02, 0x01]) ∧
        t.out = { s.out with txValid := true, txLen := t.out.txLen, txBytes := t.out.txBytes } ∧
        t.out.txLen.toNat = 12 + a.length ∧ (∀ k (h : k < 30), t.out.txBytes[k] = (t.tx.drop s.tx.length).getD k 0) ∧
        t.txn = { s.txn with state := .sent, stage := p.2.2, awaitCode := p.2.1, tSend := s.now } ∧
        t.framing = s.framing ∧ SameSensor s t ∧ SameTick s t ∧ t.rx = s.rx

/-! ## The rows of format H: RESET, POLL, NOP -/

/-- RESET: from any state every register takes its value of R50, `buf` keeps what it held, the streams and the clock are
not reset, and every pulse output is 0 with no response (R290, R294; the values are the spec's decision D22). -/
def Obligations.ResetWritesEveryRegister : Prop :=
  ∀ s : State, ∃ t, exec .reset s = .next t ∧
    t.framing.sync = .idle ∧ t.framing.bufLen = 0 ∧ t.framing.bufClass = .data ∧ SameBytes s t ∧
    t.tel = State.reset.tel ∧ t.gates = State.reset.gates ∧ t.fw = State.reset.fw ∧ t.conn = State.reset.conn ∧
    t.txn = State.reset.txn ∧
    t.rx = s.rx ++ s.input.arrivals ∧ t.tx = s.tx ∧ NextTick s t ∧
    t.out.rxReady = false ∧ t.out.txValid = false ∧ t.out.frameOk = false ∧ t.out.reqReady = false ∧
    t.out.rspValid = false ∧ t.out.evValid = false

/-- The state after reset holds the table of R50 (the spec's decision D22). That no read of `buf` answers a byte then is the
model's, since the spec leaves `buf` unspecified (R22, U9; log 8). -/
def Obligations.ResetStateIsTable : Prop :=
  State.reset.framing.sync = .idle ∧ State.reset.framing.bufLen = 0 ∧ State.reset.framing.bufClass = .data ∧
  (∀ a, Memory.read State.reset.framing.buf a = none) ∧
  State.reset.tel = ⟨0, 0, 0, 0, 0, 0, 0, false⟩ ∧
  State.reset.gates.maxGate = 0 ∧ State.reset.gates.maxMovGate = 0 ∧ State.reset.gates.maxStaGate = 0 ∧
  State.reset.gates.idleTime = 0 ∧ State.reset.gates.valid = false ∧
  (∀ g (h : g < 9), State.reset.gates.motSens[g] = 0 ∧ State.reset.gates.staSens[g] = 0) ∧
  State.reset.fw = ⟨0, 0, 0, false⟩ ∧ State.reset.conn = ⟨0, false⟩ ∧
  State.reset.txn.state = .idle ∧ State.reset.txn.stage = .enter ∧ State.reset.txn.awaitCode = 0 ∧
  State.reset.txn.tSend = 0 ∧ State.reset.txn.tgtCode = 0 ∧ State.reset.txn.tgtNargs = 0 ∧
  (∀ k (h : k < 18), State.reset.txn.tgtArgs[k] = 0) ∧
  State.reset.txn.resEnter = .none ∧ State.reset.txn.resTarget = .none ∧ State.reset.txn.resLeave = .none

/-- NOP: no register changes and every output but `req_ready` is 0; the bytes that arrived stay in `RX` (R243; decision D2). That
`tx_len` and `tx_bytes` are 0 without `tx_valid` is the model's (log 7). -/
def Obligations.NopOnlyTakesInputs : Prop :=
  ∀ s : State, s.txn.state = .idle → s.input.rst = false →
    exec .nop s = .next s.sample ∧
    s.sample.framing = s.framing ∧ SameSensor s s.sample ∧ s.sample.txn = s.txn ∧ NextTick s s.sample ∧
    s.sample.rx = s.rx ++ s.input.arrivals ∧ s.sample.tx = s.tx ∧
    s.sample.out = { Outputs.quiet with reqReady := true }

/-- POLL makes one synchronizer step: on a waiting byte it runs the row the byte decodes to and shows the step's boolean on
`frame_ok` (R110, R242). One step a POLL is the spec's decision D23; that the step is a row of its own is the model's (log
12). -/
def Obligations.PollRunsByteRow : Prop :=
  ∀ (s : State) (b : Byte) (i : Instr), FramingInv s → s.sample.rx.head? = some b →
    decode (.byte s.framing.sync s.framing.bufLen b) = .ok i →
    ∃ t, exec i s.sample = .next t ∧
      exec .poll s = .next { t with out := { t.out with frameOk := decide (t.out.evLabel = 5 ∨ t.out.evLabel = 9) } }

/-- A step with no byte changes nothing: POLL ends as NOP does, WAIT_TICK before its deadline too, and a frame in progress
stays in progress (R111, R200, R242). The deadline test before the byte is the spec's decision D13; that `tx_len` and
`tx_bytes` are 0 in such a tick, as `s.sample` has them, is the model's (log 7). -/
def Obligations.NoByteChangesNothing : Prop :=
  ∀ s : State, s.rx = [] → s.input.arrivals = [] →
    exec .poll s = .next s.sample ∧
    s.sample.framing = s.framing ∧ SameSensor s s.sample ∧ s.sample.txn = s.txn ∧ NextTick s s.sample ∧
    s.sample.rx = [] ∧ s.sample.tx = s.tx ∧ s.sample.out.rxReady = false ∧ s.sample.out.frameOk = false ∧
    s.sample.out.evValid = false ∧
    (elapsed s.cfg s.input.now s.txn.tSend < s.cfg.ackTimeoutMs → exec .waitTick s = .next s.sample)

/-! ## The rows of format H: the transaction controller -/

/-- REQ_ACCEPT: the request is latched with zeros above its arguments, the outcomes are cleared, the enter command goes out;
`RX` and the framing registers are left as they are (R192, R194; decisions D18, D19, D25). -/
def Obligations.RequestAccepted : Prop :=
  ∀ (c : Byte) (n : BitVec 5) (a : Vector Byte 18) (s : State),
    ∃ t, exec (.reqAccept c n a) s = .next t ∧
      t.txn.tgtCode = c ∧ t.txn.tgtNargs = n ∧
      (∀ k (h : k < 18), t.txn.tgtArgs[k] = if k < n.toNat then a[k] else 0) ∧
      t.txn.resEnter = .none ∧ t.txn.resTarget = .none ∧ t.txn.resLeave = .none ∧
      t.txn.state = .sent ∧ t.txn.stage = .enter ∧ t.txn.awaitCode = 0xFF ∧ t.txn.tSend = s.input.now ∧
      t.tx = s.tx ++ commandFrame 0xFF s.cfg.enterArgs ∧ t.out.txValid = true ∧ t.out.rspValid = false ∧
      t.out.evValid = false ∧ t.out.frameOk = false ∧ t.out.rxReady = false ∧
      t.framing = s.framing ∧ SameSensor s t ∧ t.rx = s.rx ++ s.input.arrivals ∧ NextTick s t

/-- WAIT_TICK before its deadline makes one synchronizer step: on a waiting byte it runs the row the byte decodes to, and
only the awaited ack moves `txn_state`, a refused one not in stage ENTER (R200, R203 to R206). The spec's decision D16; that
the step is a row of its own is the model's (log 12). -/
def Obligations.WaitTickRunsByteRow : Prop :=
  ∀ (s : State) (b : Byte) (i : Instr), FramingInv s → s.sample.rx.head? = some b →
    decode (.byte s.framing.sync s.framing.bufLen b) = .ok i →
    elapsed s.cfg s.input.now s.txn.tSend < s.cfg.ackTimeoutMs →
    ∃ t, exec i s.sample = .next t ∧
      exec .waitTick s = .next { t with txn := { t.txn with state :=
        if t.out.evLabel = 9 ∧ t.out.evInfo = s.txn.awaitCode then .ackedSuccess
        else if t.out.evLabel = 10 ∧ t.out.evInfo = s.txn.awaitCode ∧ s.txn.stage ≠ .enter then .ackedFailure
        else s.txn.state } }

/-- A synchronizer step of a wait does to every register but `txn_state` what the step of a POLL does: data frames and acks
that are not awaited have their full effect, and the wait goes on (R204, R205). -/
def Obligations.WaitTickStepsAsPoll : Prop :=
  ∀ s t : State, elapsed s.cfg s.input.now s.txn.tSend < s.cfg.ackTimeoutMs → exec .poll s = .next t →
    ∃ st, exec .waitTick s = .next { t with
        txn := { t.txn with state := st }
        out := { t.out with frameOk := false } } ∧
      (¬(t.out.evValid = true ∧ t.out.evLabel ∈ [9, 10] ∧ t.out.evInfo = s.txn.awaitCode) → st = s.txn.state)

/-- WAIT_TICK at or past its deadline: timeout, and no byte is consumed even if one waits (R201, R260, R263; the boundary and
the order of the tests are the spec's decision D13). -/
def Obligations.WaitTickTimesOut : Prop :=
  ∀ s : State, s.cfg.ackTimeoutMs ≤ elapsed s.cfg s.input.now s.txn.tSend →
    ∃ t, exec .waitTick s = .next t ∧
      t.txn = { s.txn with state := .timedOut } ∧ t.framing = s.framing ∧ SameSensor s t ∧
      t.rx = s.rx ++ s.input.arrivals ∧ t.tx = s.tx ∧ NextTick s t ∧
      t.out.evValid = true ∧ t.out.evLabel = 13 ∧ t.out.evInfo = s.txn.awaitCode ∧
      t.out.rxReady = false ∧ t.out.rspValid = false ∧ t.out.txValid = false ∧ t.out.frameOk = false

/-- A wait ends only by the timeout or by the awaited ack observed, and a WAIT_TICK writes no other transaction register
(R203, R205, R206, R219). The spec's decisions D13 and D16. -/
def Obligations.WaitEndsOnlyOnAwaitedAck : Prop :=
  ∀ s t : State, s.txn.state = .sent → exec .waitTick s = .next t →
    t.txn = { s.txn with state := t.txn.state } ∧
    (t.txn.state = .sent ∨
      (t.txn.state = .timedOut ∧ s.cfg.ackTimeoutMs ≤ elapsed s.cfg s.input.now s.txn.tSend) ∨
      (t.txn.state = .ackedSuccess ∧ t.out.evLabel = 9 ∧ t.out.evInfo = s.txn.awaitCode ∧
        t.conn.ts = s.input.now ∧ t.conn.valid = true) ∨
      (t.txn.state = .ackedFailure ∧ t.out.evLabel = 10 ∧ t.out.evInfo = s.txn.awaitCode ∧ s.txn.stage ≠ .enter ∧
        SameSensor s t))

/-- The elapsed time is right across the wrap of the clock: a wait of `d` milliseconds since the send has passed its
deadline exactly when `d` is at least `ACK_TIMEOUT_MS` (R202). The modular test is the spec's decision D13. -/
def Obligations.TimeoutAcrossClockWrap : Prop :=
  ∀ (s : State) (d : Nat), d < 2 ^ s.cfg.clockW →
    (deadlinePassed { s with now := (s.txn.tSend + d) % 2 ^ s.cfg.clockW } = true ↔ s.cfg.ackTimeoutMs ≤ d)

/-- STAGE_ADVANCE runs the row of the command it sends: after a successful enter the row of the latched command, at the end
of stage TARGET the leave command, with the outcome recorded (R210, R211, R212). That the sent frame is a row of its own is
the model's (log 12). -/
def Obligations.StageAdvanceRunsCommandRow : Prop :=
  ∀ s : State,
    (s.txn.state = .ackedSuccess → s.txn.stage = .enter → legalRequest s.cfg.argsMax s.txn.tgtCode s.txn.tgtNargs = true →
      ∃ i, decode (.cmd (commandFrame s.txn.tgtCode (s.txn.tgtArgs.toList.take s.txn.tgtNargs.toNat))) = .ok i ∧
        exec .stageAdvance s = exec i { s.sample with txn := { s.txn with resEnter := .success } }) ∧
    (∀ p ∈ [(TxnState.ackedSuccess, StageOutcome.success), (.ackedFailure, .failure), (.timedOut, .timeout)],
      s.txn.state = p.1 → s.txn.stage = .target →
      exec .stageAdvance s = exec (.cmdLeaveCfg s.cfg.leaveArgs) { s.sample with txn := { s.txn with resTarget := p.2 } })

/-- The end of stage ENTER without success aborts the whole request: nothing more is sent, the response is false with the
outcome, the transaction registers are cleared (R210, R211, R214; decision D17). -/
def Obligations.FailedEnterAbortsRequest : Prop :=
  ∀ s : State, s.txn.stage = .enter →
    ∀ p ∈ [(TxnState.timedOut, (3 : BitVec 2)), (.ackedFailure, 2)], s.txn.state = p.1 →
      ∃ t, exec .stageAdvance s = .next t ∧
        t.out.rspValid = true ∧ t.out.rspOk = false ∧ t.out.rspEnter = p.2 ∧ t.out.rspTarget = 0 ∧ t.out.rspLeave = 0 ∧
        t.out.txValid = false ∧ t.out.rxReady = false ∧ t.out.evValid = false ∧ t.out.frameOk = false ∧
        t.tx = s.tx ∧ t.txn = State.reset.txn ∧ t.framing = s.framing ∧ SameSensor s t ∧
        t.rx = s.rx ++ s.input.arrivals ∧ NextTick s t

/-- The end of stage TARGET, whatever its outcome: the outcome is recorded and the leave command is sent (R212). -/
def Obligations.TargetEndSendsLeave : Prop :=
  ∀ s : State, s.txn.stage = .target →
    ∀ p ∈ [(TxnState.ackedSuccess, StageOutcome.success), (.ackedFailure, .failure), (.timedOut, .timeout)],
      s.txn.state = p.1 →
      ∃ t, exec .stageAdvance s = .next t ∧
        t.txn = { s.txn with
          resTarget := p.2, state := .sent, stage := .leave, awaitCode := 0xFE, tSend := s.input.now } ∧
        t.tx = s.tx ++ commandFrame 0xFE s.cfg.leaveArgs ∧ t.out.txValid = true ∧ t.out.rspValid = false ∧
        t.out.evValid = false ∧ t.out.frameOk = false ∧ t.out.rxReady = false ∧
        t.framing = s.framing ∧ SameSensor s t ∧ t.rx = s.rx ++ s.input.arrivals ∧ NextTick s t

/-- The end of stage LEAVE, whatever its outcome: the response is the target's own success with the three outcomes, and the
transaction registers are cleared (R210, R213, R214; decision D20). -/
def Obligations.LeaveEndRespondsTargetResult : Prop :=
  ∀ s : State, s.txn.stage = .leave →
    ∀ p ∈ [(TxnState.ackedSuccess, (1 : BitVec 2)), (.ackedFailure, 2), (.timedOut, 3)], s.txn.state = p.1 →
      ∃ t, exec .stageAdvance s = .next t ∧
        t.out.rspValid = true ∧ (t.out.rspOk = true ↔ s.txn.resTarget = .success) ∧
        t.out.rspEnter = outcomeCode s.txn.resEnter ∧ t.out.rspTarget = outcomeCode s.txn.resTarget ∧
        t.out.rspLeave = p.2 ∧
        t.out.txValid = false ∧ t.out.rxReady = false ∧ t.out.evValid = false ∧ t.out.frameOk = false ∧
        t.tx = s.tx ∧ t.txn = State.reset.txn ∧ t.framing = s.framing ∧ SameSensor s t ∧
        t.rx = s.rx ++ s.input.arrivals ∧ NextTick s t

/-! ## Who may write what -/

/-- Only DATA.NORMAL and RESET write Telemetry State (R147). -/
def Obligations.TelemetryWrittenOnlyByNormalFrame : Prop :=
  ∀ s t : State, step s = .next t → t.tel ≠ s.tel →
    s.input.rst = true ∨ (t.out.evValid = true ∧ t.out.evLabel = 5)

/-- Only a successful query-configuration ack writes the gate registers, only a successful firmware-version ack the firmware
registers, besides RESET; no request operation does (R179). -/
def Obligations.ConfigWrittenOnlyByItsAcks : Prop :=
  ∀ s t : State, step s = .next t →
    (t.gates ≠ s.gates → s.input.rst = true ∨ (t.out.evValid = true ∧ t.out.evLabel = 9 ∧ t.out.evInfo = 0x61)) ∧
    (t.fw ≠ s.fw → s.input.rst = true ∨ (t.out.evValid = true ∧ t.out.evLabel = 9 ∧ t.out.evInfo = 0xA0))

/-- Outside RESET connectivity is stamped with the tick's clock exactly by a step that ends DATA_OK or ACK_OK, and by no
other (R32). The flag `conn_valid` is the spec's decisions D15 and D22. -/
def Obligations.ConnectivityStampedOnlyOnSuccess : Prop :=
  ∀ s t : State, step s = .next t → s.input.rst = false →
    (t.out.evValid = true ∧ (t.out.evLabel = 5 ∨ t.out.evLabel = 9) → t.conn.ts = s.input.now ∧ t.conn.valid = true) ∧
    (¬(t.out.evValid = true ∧ (t.out.evLabel = 5 ∨ t.out.evLabel = 9)) → t.conn = s.conn)

/-- Every error kind that ends a step (OVERRUN, both length mismatches, both unknown shapes, status failure) resets the
framing registers and leaves Sensor State as it was (R260, R261, R264). The labels' numbers are the spec's decision D12. -/
def Obligations.StepErrorsLeaveSensorState : Prop :=
  ∀ s t : State, step s = .next t → t.out.evValid = true → t.out.evLabel ∈ [4, 7, 8, 10, 11, 12] →
    SameSensor s t ∧ t.framing.sync = .idle ∧ t.framing.bufLen = 0 ∧ t.out.rxReady = true ∧ t.out.frameOk = false

/-- Outside RESET the bytes of the frame in progress are the last ones consumed, in order: a consumed byte leaves the buffer
empty, or starts it, or stands behind what was there (R25(d)). The buffer as a list of written cells is the model's (log 8).
-/
def Obligations.BufferHoldsConsumedBytes : Prop :=
  ∀ s t : State, FramingInv s → s.input.rst = false → step s = .next t →
    (t.out.rxReady = false → heldBytes t = heldBytes s) ∧
    ∀ b, b :: t.rx = s.rx ++ s.input.arrivals →
      t.framing.sync = .idle ∨
      (t.framing.sync = .accum ∧ s.framing.sync = .idle ∧ heldBytes t = [b]) ∨
      (t.framing.sync = .accum ∧ s.framing.sync = .accum ∧ heldBytes t = heldBytes s ++ [b])

/-! ## Invariants and safety -/

/-- The four invariants hold after reset. The reset values are the spec's decision D22; the buffer with nothing written is
the model's (log 8). -/
def Obligations.InvariantsAtReset : Prop :=
  FramingInv State.reset ∧ TxnInv State.reset ∧ ValidInv State.reset ∧ ClockInv State.reset

/-- Every tick keeps the framing invariants of R25 and the canonical form of the buffer. The buffer as a list of written
cells is the model's (log 8). -/
def Obligations.FramingInvKept : Prop :=
  ∀ s t : State, FramingInv s → step s = .next t → FramingInv t

/-- Every tick keeps the transaction invariants (R34 to R38, R203, R215). The latch, the stages and the outcomes are the
spec's decisions D12, D16, D19, D20 and D21. -/
def Obligations.TransactionInvKept : Prop :=
  ∀ s t : State, TxnInv s → step s = .next t → TxnInv t

/-- Every tick keeps the valid flags true to their groups (R33, R254). The flags and the reset values are the spec's
decision D22. -/
def Obligations.ValidFlagsKept : Prop :=
  ∀ s t : State, ValidInv s → step s = .next t → ValidInv t

/-- From a state that meets the framing invariant no tick reads the frame buffer at or above `buf_len` or where nothing was
written, nor writes past its end: every tick of it answers a next state, and so does every later one (R66). The faults are
the model's (log 8, 10). -/
def Obligations.NoTickFaults : Prop :=
  ∀ (s : State) (k : Nat), FramingInv s → ∃ t, run k s = .next t ∧ SafeTick t

/-! ## Status outputs -/

/-- `presence`, `moving` and `stationary` by the bits of `tgt_type`; bits 7 to 2 take no part, and all three are 0 after
reset (R250, R251; decision D24). -/
def Obligations.PresenceFromTargetBits : Prop :=
  (∀ s : State,
    (moving s = true ↔ s.tel.tgtType.toNat % 2 = 1) ∧
    (stationary s = true ↔ s.tel.tgtType.toNat / 2 % 2 = 1) ∧
    (presence s = true ↔ s.tel.tgtType.toNat % 4 ≠ 0)) ∧
  presence State.reset = false ∧ moving State.reset = false ∧ stationary State.reset = false

/-- `connected` is true for the staleness window after any successful frame parse and false from its end on, and is false
before the first, which is where `conn_valid` is 0, whatever the window and the clock. The window is any legal one, below
`2^CLOCK_W`, so its end comes before the clock has wrapped (R252, R256(e); decisions D15, D28). -/
def Obligations.ConnectedForTheStalenessWindow : Prop :=
  (∀ (s t : State) (window : StaleWindow t.cfg), step s = .next t → t.out.evValid = true →
    (t.out.evLabel = 5 ∨ t.out.evLabel = 9) →
    (∀ d, d < 2 ^ t.cfg.clockW →
      (connected t window ((t.now + d) % 2 ^ t.cfg.clockW) = true ↔ d < window.val)) ∧
    connected t window ((t.now + window.val) % 2 ^ t.cfg.clockW) = false) ∧
  (∀ (s : State) (window : StaleWindow s.cfg) (now : Nat), s.conn.valid = false → connected s window now = false) ∧
  State.reset.conn.valid = false

/-! ## Runs -/

/-- A well-formed normal-mode frame fed to an idle core by 23 POLLs is parsed exactly once: the first 22 ticks write no
Sensor State and have `frame_ok` 0, the 23rd writes its values. The proviso on the payload is the spec's (R127). The layout
is the spec's decision D8. -/
def Obligations.GoodNormalFrameParsedOnce : Prop :=
  ∀ (s : State) (tt m0 m1 me s0 s1 se dd u : Byte) (rest : List Byte) (ticks later : List TickInput) (last : TickInput),
    s.framing.sync = .idle → s.txn.state = .idle →
    s.rx = [0xF4, 0xF3, 0xF2, 0xF1, 0x0D, 0x00, 0x02, 0xAA, tt, m0, m1, me, s0, s1, se, dd, u, 0x55, 0x00,
      0xF8, 0xF7, 0xF6, 0xF5] ++ rest →
    (∀ k, k < 19 → ([0xF4, 0xF3, 0xF2, 0xF1, 0x0D, 0x00, 0x02, 0xAA, tt, m0, m1, me, s0, s1, se, dd, u, 0x55, 0x00,
      0xF8, 0xF7, 0xF6, 0xF5].drop k).take 4 ≠ [(0xF8 : Byte), 0xF7, 0xF6, 0xF5]) →
    s.inputs = ticks ++ last :: later → ticks.length = 22 →
    (∀ i ∈ ticks ++ [last], i.rst = false ∧ i.poll = true ∧ i.reqValid = false) →
    (∀ k, k < 22 → ∃ t, run (k + 1) s = .next t ∧ SameSensor s t ∧ t.out.frameOk = false) ∧
    ∃ t, run 23 s = .next t ∧ t.out.frameOk = true ∧
      t.tel.tgtType = tt ∧ t.tel.movDist.toNat = m0.toNat + 256 * m1.toNat ∧ t.tel.movEnergy = me ∧
      t.tel.staDist.toNat = s0.toNat + 256 * s1.toNat ∧ t.tel.staEnergy = se ∧ t.tel.detDist = dd ∧
      t.tel.ts = last.now % 2 ^ s.cfg.clockW ∧ t.tel.valid = true ∧ t.conn.ts = last.now % 2 ^ s.cfg.clockW ∧ t.conn.valid = true ∧
      t.gates = s.gates ∧ t.fw = s.fw ∧ t.txn = s.txn ∧ t.framing.sync = .idle ∧ t.framing.bufLen = 0

/-- A frame whose header bytes 1 to 3 are damaged costs exactly 41 bytes: 41 POLLs from IDLE end in OVERRUN with nothing
parsed, whatever the bytes are, and the byte that overran is dropped even if it is a start marker (R115, R125, R126). That
the byte is dropped is the spec's decision D3. -/
def Obligations.DamagedHeaderCostsFortyOneBytes : Prop :=
  ∀ (s : State) (start : Byte) (body rest : List Byte) (ticks later : List TickInput),
    s.framing.sync = .idle → s.txn.state = .idle →
    s.rx = start :: body ++ rest → body.length = 40 →
    (start = 0xF4 ∧ body.take 3 ≠ [0xF3, 0xF2, 0xF1] ∨ start = 0xFD ∧ body.take 3 ≠ [0xFC, 0xFB, 0xFA]) →
    s.inputs = ticks ++ later → ticks.length = 41 →
    (∀ i ∈ ticks, i.rst = false ∧ i.poll = true ∧ i.reqValid = false) →
    (∀ k, k < 40 → ∃ t, run (k + 1) s = .next t ∧ t.framing.sync = .accum ∧ t.framing.bufLen.toNat = k + 1 ∧
      SameSensor s t ∧ t.out.frameOk = false) ∧
    ∃ t, run 41 s = .next t ∧ t.framing.sync = .idle ∧ t.framing.bufLen = 0 ∧ SameSensor s t ∧ t.txn = s.txn ∧
      t.out.evLabel = 4 ∧ t.out.frameOk = false ∧ t.rx = rest ++ (ticks.map TickInput.arrivals).flatten

/-- A request that gets no byte before its timeout reports failure: one REQ_ACCEPT, any number of waits before the deadline,
the WAIT_TICK that sees it passed and one STAGE_ADVANCE end with the response (0, TIMEOUT, NONE, NONE), the enter frame the
only one sent and no register outside the transaction registers changed (R218). The spec's decisions D13 and D17. -/
def Obligations.UnansweredRequestTimesOut : Prop :=
  ∀ (s : State) (req dead last : TickInput) (waits later : List TickInput),
    s.txn = Transaction.cleared → s.rx = [] → s.inputs = req :: waits ++ dead :: last :: later →
    req.rst = false → req.reqValid = true → legalRequest s.cfg.argsMax req.reqCode req.reqNargs = true → req.arrivals = [] →
    (∀ w ∈ waits, w.rst = false ∧ w.arrivals = [] ∧ elapsed s.cfg w.now req.now < s.cfg.ackTimeoutMs) →
    dead.rst = false → s.cfg.ackTimeoutMs ≤ elapsed s.cfg dead.now req.now → last.rst = false →
    ∃ t, run (waits.length + 3) s = .next t ∧
      t.out.rspValid = true ∧ t.out.rspOk = false ∧ t.out.rspEnter = 3 ∧ t.out.rspTarget = 0 ∧ t.out.rspLeave = 0 ∧
      t.tx = s.tx ++ commandFrame 0xFF s.cfg.enterArgs ∧ t.framing = s.framing ∧ SameSensor s t ∧ t.txn = s.txn

/-- With a fair clock every request ends: after a REQ_ACCEPT, whatever bytes arrive, there is a tick that presents the response
and clears the transaction registers, unless the host resets, and no tick before it presents one (R306, R217). Without one it
does not: as long as no byte comes and the clock stays short of the deadline, the wait goes on and `req_ready` is 0 (R306).
The fairness assumption is R306's (log 24); the environment as a function of the tick's number is the model's (log 4). -/
def Obligations.EveryRequestEnds : Prop :=
  (∀ (s : State) (env : Nat → TickInput), FramingInv s → s.txn.state = .idle → FairClock s.cfg env →
    (∀ k, (env k).rst = false) →
    (env 0).reqValid = true → legalRequest s.cfg.argsMax (env 0).reqCode (env 0).reqNargs = true →
    ∃ (m n : Nat) (t : State), n < m ∧ run (n + 1) (s.under env m) = .next t ∧
      t.out.rspValid = true ∧ t.txn = Transaction.cleared ∧
      ∀ j, j < n → ∃ u, run (j + 1) (s.under env m) = .next u ∧ u.txn.state ≠ .idle ∧ u.out.rspValid = false) ∧
  ∀ (s : State) (env : Nat → TickInput) (n : Nat), s.txn.state = .sent → s.rx = [] →
    (∀ k, k < n + 1 → (env k).rst = false ∧ (env k).arrivals = [] ∧
      elapsed s.cfg (env k).now s.txn.tSend < s.cfg.ackTimeoutMs) →
    ∃ t, run (n + 1) (s.under env (n + 1)) = .next t ∧ t.txn = s.txn ∧ t.out.reqReady = false ∧ t.out.rspValid = false
end

