-- ==== Sys2Proof/Laws/Bytes.lean ====
section
/-! SUPPORT. Byte order, vectors of bytes, and the layout of a frame: what the checks of the decoder find in a frame the
encoder built. -/
namespace Sys2Proof
open Sys2Proof.Machine

/-! ## Byte order -/

theorem lo8_toNat (v : BitVec 16) : (lo8 v).toNat = v.toNat % 256 := by
  simp [lo8, BitVec.extractLsb'_toNat]

theorem hi8_toNat (v : BitVec 16) : (hi8 v).toNat = v.toNat / 256 := by
  have := v.isLt
  simp [hi8, BitVec.extractLsb'_toNat, Nat.shiftRight_eq_div_pow]; omega

theorem append_toNat {n m : Nat} (a : BitVec n) (b : BitVec m) : (a ++ b).toNat = a.toNat * 2 ^ m + b.toNat := by
  rw [BitVec.toNat_append, Nat.shiftLeft_eq, Nat.mul_comm, ← Nat.two_pow_add_eq_or_of_lt b.isLt, Nat.mul_comm]

theorem le16_toNat (lo hi : Byte) : (le16 lo hi).toNat = lo.toNat + 256 * hi.toNat := by
  unfold le16; rw [append_toNat]; omega

theorem le32_toNat (b0 b1 b2 b3 : Byte) :
    (le32 b0 b1 b2 b3).toNat = b0.toNat + 256 * b1.toNat + 65536 * b2.toNat + 16777216 * b3.toNat := by
  unfold le32; simp only [append_toNat]; omega

@[simp] theorem lo8_le16 (lo hi : Byte) : lo8 (le16 lo hi) = lo := by
  have := lo.isLt
  apply BitVec.eq_of_toNat_eq; rw [lo8_toNat, le16_toNat]; omega

@[simp] theorem hi8_le16 (lo hi : Byte) : hi8 (le16 lo hi) = hi := by
  have := lo.isLt
  apply BitVec.eq_of_toNat_eq; rw [hi8_toNat, le16_toNat]; omega

@[simp] theorem le16_lo8_hi8 (v : BitVec 16) : le16 (lo8 v) (hi8 v) = v := by
  apply BitVec.eq_of_toNat_eq; rw [le16_toNat, lo8_toNat, hi8_toNat]; omega

/-! ## Vectors -/

@[simp] theorem vecOf_toList {n : Nat} (v : Vector Byte n) : vecOf n v.toList = v := by
  apply Vector.toList_inj.mp; simp [vecOf]

theorem toList_vecOf {n : Nat} (l : List Byte) (h : l.length = n) : (vecOf n l).toList = l := by
  subst h; simp [vecOf]

theorem vecOf_getElem (n : Nat) (l : List Byte) (k : Nat) (h : k < n) : (vecOf n l)[k] = l.getD k 0 := by
  simp only [vecOf, Vector.getElem_mk, List.getElem_toArray, List.getElem_append, List.getElem_replicate,
    List.length_take, List.getElem_take]
  split
  · rw [List.getD_eq_getElem]
  · rw [List.getD_eq_default]; omega

/-! ## The layout of a frame -/

theorem frameOf_length (cls : FrameClass) (p : List Byte) : (frameOf cls p).length = p.length + 10 := by
  cases cls <;> simp [frameOf, headerOf, trailerOf]

theorem declaredLength_frameOf (cls : FrameClass) (p : List Byte) (h : p.length < 65536) :
    declaredLength (frameOf cls p) = p.length := by
  cases cls <;> simp [declaredLength, frameOf, headerOf, Nat.mod_eq_of_lt h]

theorem payloadOf_frameOf (cls : FrameClass) (p : List Byte) : payloadOf (frameOf cls p) = p := by
  cases cls <;> simp [payloadOf, envelope, frameOf, headerOf, trailerOf]

theorem hasMarkers_frameOf (cls : FrameClass) (p : List Byte) : hasMarkers cls (frameOf cls p) = true := by
  have e : (frameOf cls p).length - 4 = (headerOf cls ++ [lo8 (BitVec.ofNat 16 p.length), hi8 (BitVec.ofNat 16 p.length)]
      ++ p).length := by
    cases cls <;> simp [frameOf, headerOf, trailerOf]
  unfold hasMarkers; rw [e]
  cases cls <;> simp [frameOf, headerOf]

/-- A frame the encoder built passes every check, and its payload comes back. -/
theorem checkFrame_frameOf (cls : FrameClass) (p : List Byte) (h : p.length ≤ 30) :
    checkFrame cls (frameOf cls p) = .ok p := by
  have h1 : ¬ bufCap < p.length + 10 := by simp [bufCap]; omega
  have h2 : ¬ p.length + 10 < minCheckLen := by simp [minCheckLen]
  simp [checkFrame, hasMarkers_frameOf, lengthOk, payloadOf_frameOf, frameOf_length,
    declaredLength_frameOf cls p (by omega), h1, h2]

/-- What a frame that passes the checks is. -/
theorem checkFrame_ok (cls : FrameClass) (f p : List Byte) (h : checkFrame cls f = .ok p) :
    f.length ≤ 40 ∧ 8 ≤ f.length ∧ hasMarkers cls f = true ∧ lengthOk f = true ∧ p = payloadOf f := by
  unfold checkFrame at h
  split at h
  · cases h
  · split at h
    · cases h
    · split at h
      · cases h
      · rename_i a b c; cases h; simp [bufCap, minCheckLen] at a b c; simp [a, b, c]

/-- A frame that passes the checks is the frame around its payload. -/
theorem checkFrame_eq (cls : FrameClass) (f p : List Byte) (h : checkFrame cls f = .ok p) :
    f = frameOf cls p ∧ p.length ≤ 30 := by
  obtain ⟨h40, h8, hm, hl, rfl⟩ := checkFrame_ok cls f p h
  simp only [lengthOk, envelope, beq_iff_eq] at hl
  simp only [hasMarkers, Bool.and_eq_true, beq_iff_eq] at hm
  obtain ⟨hh, ht⟩ := hm
  have hp : (payloadOf f).length = f.length - 10 := by simp [payloadOf, envelope]; omega
  refine ⟨?_, by omega⟩
  have e1 : f = f.take 4 ++ ((f.drop 4).take 2 ++ ((f.drop 6).take (f.length - 10) ++ f.drop (f.length - 4))) := by
    have a := (List.take_append_drop 4 f).symm
    have b := (List.take_append_drop 2 (f.drop 4)).symm
    have c := (List.take_append_drop (f.length - 10) (f.drop 6)).symm
    simp only [List.drop_drop] at b c
    have e : 6 + (f.length - 10) = f.length - 4 := by omega
    rw [e] at c
    rw [← c, ← b, ← a]
  have e2 : (f.drop 4).take 2 = [f.getD 4 0, f.getD 5 0] := by
    apply List.ext_getElem
    · simp; omega
    · intro k h1 h2
      simp at h2
      match k, h2 with
      | 0, _ => simp [List.getElem?_eq_getElem (show 4 < f.length by omega)]
      | 1, _ => simp [List.getElem?_eq_getElem (show 5 < f.length by omega)]
  have e3 : BitVec.ofNat 16 (f.length - 10) = le16 (f.getD 4 0) (f.getD 5 0) := by
    apply BitVec.eq_of_toNat_eq
    rw [BitVec.toNat_ofNat, ← hl]
    have := (le16 (f.getD 4 0) (f.getD 5 0)).isLt
    simp only [declaredLength] at *
    omega
  unfold frameOf
  rw [hp, e3, lo8_le16, hi8_le16, ← e2, ← hh, ← ht]
  simpa [payloadOf, envelope] using e1

end Sys2Proof
end

