-- ==== Sys2Proof/Laws/Memory.lean ====
section
/-! SUPPORT. The frame buffer's cells: reading after a write, and the canonical form, which every write keeps. -/
namespace Sys2Proof.Machine
open Sys2Proof

@[simp] theorem read_write_same (m : Memory) (a : Nat) (v : Byte) : Memory.read (Memory.write m a v) a = some v := by
  induction m with
  | nil => simp [Memory.write, Memory.read]
  | cons c m ih =>
    obtain ⟨k, x⟩ := c
    unfold Memory.write
    split
    · simp [Memory.read]
    · split
      · simp [Memory.read]
      · rename_i h; simp [Memory.read, h, ih]

theorem read_write_other (m : Memory) (a k : Nat) (v : Byte) (h : k ≠ a) :
    Memory.read (Memory.write m a v) k = Memory.read m k := by
  induction m with
  | nil => simp [Memory.write, Memory.read, h]
  | cons c m ih =>
    obtain ⟨j, x⟩ := c
    unfold Memory.write
    split
    · simp [Memory.read, h]
    · split
      · rename_i h2; subst h2; simp [Memory.read, h]
      · simp [Memory.read, ih]

/-- A write is a store of one byte in the terms of claims. -/
theorem storedByte_write (s t : State) (a : Nat) (v : Byte) (h : t.framing.buf = Memory.write s.framing.buf a v) :
    StoredByte a v s t := by
  refine ⟨by rw [h]; simp, fun k hk => ?_⟩
  rw [h, read_write_other _ _ _ _ hk]

theorem wf_tail (c : Host.Cell) (m : Memory) (h : Memory.wf (c :: m) = true) : Memory.wf m = true := by
  cases m with
  | nil => rfl
  | cons d m => simp [Memory.wf] at h; exact h.2

theorem wf_cons_write (k : Nat) (x : Byte) (m : Memory) (a : Nat) (v : Byte) (hk : k < a) (ha : a < bufCap)
    (h : Memory.wf ((k, x) :: m) = true) (ih : Memory.wf (Memory.write m a v) = true) :
    Memory.wf ((k, x) :: Memory.write m a v) = true := by
  cases m with
  | nil => simp [Memory.write, Memory.wf, hk]; simpa using ha
  | cons d m =>
    obtain ⟨j, y⟩ := d
    have hj : k < j := by simp [Memory.wf] at h; exact h.1
    unfold Memory.write at ih ⊢
    split at ih <;> rename_i h1
    · rw [if_pos h1]; simpa [Memory.wf, hk] using ih
    · split at ih <;> rename_i h2
      · rw [if_neg h1, if_pos h2]; simpa [Memory.wf, hk] using ih
      · rw [if_neg h1, if_neg h2]; simpa [Memory.wf, hj] using ih

/-- Every write inside the buffer keeps the canonical form. -/
theorem wf_write (m : Memory) (a : Nat) (v : Byte) (ha : a < bufCap) (h : Memory.wf m = true) :
    Memory.wf (Memory.write m a v) = true := by
  induction m with
  | nil => simpa [Memory.write, Memory.wf] using ha
  | cons c m ih =>
    obtain ⟨k, x⟩ := c
    have ih := ih (wf_tail _ _ h)
    by_cases h1 : a < k
    · have hw : Memory.write ((k, x) :: m) a v = (a, v) :: (k, x) :: m := by simp [Memory.write, h1]
      rw [hw]
      show (decide (a < k) && Memory.wf ((k, x) :: m)) = true
      simp [h1, h]
    · by_cases h2 : a = k
      · subst h2
        cases m with
        | nil => simpa [Memory.write, Memory.wf] using ha
        | cons d m => simpa [Memory.write, Memory.wf] using h
      · simp only [Memory.write, if_neg h1, if_neg h2]
        exact wf_cons_write k x m a v (by omega) ha h ih

theorem reset_wf : Memory.wf State.reset.framing.buf = true := rfl

/-- A write through the buffer's operation keeps the canonical form. -/
theorem bufWrite_wf (a : Nat) (v : Byte) (s t : State) (h : bufWrite a v s = .ok t)
    (hs : Memory.wf s.framing.buf = true) : Memory.wf t.framing.buf = true := by
  unfold bufWrite at h
  split at h
  · rename_i ha; cases h; exact wf_write _ _ _ ha hs
  · cases h

end Sys2Proof.Machine
end

