-- ==== Sys2Proof/Laws/State.lean ====
section
/-! SUPPORT. One lemma per field of State for each update, so that no proof unfolds one. -/
namespace Sys2Proof.Machine
open Sys2Proof

@[simp] theorem rxRead_cfg (s : State) : (rxRead s).cfg = s.cfg := rfl
@[simp] theorem rxRead_framing (s : State) : (rxRead s).framing = s.framing := rfl
@[simp] theorem rxRead_tel (s : State) : (rxRead s).tel = s.tel := rfl
@[simp] theorem rxRead_gates (s : State) : (rxRead s).gates = s.gates := rfl
@[simp] theorem rxRead_fw (s : State) : (rxRead s).fw = s.fw := rfl
@[simp] theorem rxRead_conn (s : State) : (rxRead s).conn = s.conn := rfl
@[simp] theorem rxRead_txn (s : State) : (rxRead s).txn = s.txn := rfl
@[simp] theorem rxRead_rx (s : State) : (rxRead s).rx = s.rx.tail := rfl
@[simp] theorem rxRead_tx (s : State) : (rxRead s).tx = s.tx := rfl
@[simp] theorem rxRead_now (s : State) : (rxRead s).now = s.now := rfl
@[simp] theorem rxRead_inputs (s : State) : (rxRead s).inputs = s.inputs := rfl
@[simp] theorem rxRead_ticks (s : State) : (rxRead s).ticks = s.ticks := rfl
@[simp] theorem rxRead_out (s : State) : (rxRead s).out = { s.out with rxReady := true } := rfl

@[simp] theorem txWrite_cfg (f : List Byte) (s : State) : (txWrite f s).cfg = s.cfg := rfl
@[simp] theorem txWrite_framing (f : List Byte) (s : State) : (txWrite f s).framing = s.framing := rfl
@[simp] theorem txWrite_tel (f : List Byte) (s : State) : (txWrite f s).tel = s.tel := rfl
@[simp] theorem txWrite_gates (f : List Byte) (s : State) : (txWrite f s).gates = s.gates := rfl
@[simp] theorem txWrite_fw (f : List Byte) (s : State) : (txWrite f s).fw = s.fw := rfl
@[simp] theorem txWrite_conn (f : List Byte) (s : State) : (txWrite f s).conn = s.conn := rfl
@[simp] theorem txWrite_txn (f : List Byte) (s : State) : (txWrite f s).txn = s.txn := rfl
@[simp] theorem txWrite_rx (f : List Byte) (s : State) : (txWrite f s).rx = s.rx := rfl
@[simp] theorem txWrite_tx (f : List Byte) (s : State) : (txWrite f s).tx = s.tx ++ f := rfl
@[simp] theorem txWrite_now (f : List Byte) (s : State) : (txWrite f s).now = s.now := rfl
@[simp] theorem txWrite_inputs (f : List Byte) (s : State) : (txWrite f s).inputs = s.inputs := rfl
@[simp] theorem txWrite_ticks (f : List Byte) (s : State) : (txWrite f s).ticks = s.ticks := rfl
@[simp] theorem txWrite_out (f : List Byte) (s : State) : (txWrite f s).out = { s.out with txValid := true, txLen := BitVec.ofNat 5 f.length, txBytes := vecOf txMax f } := rfl

@[simp] theorem event_cfg (l : BitVec 4) (b : Byte) (s : State) : (event l b s).cfg = s.cfg := rfl
@[simp] theorem event_framing (l : BitVec 4) (b : Byte) (s : State) : (event l b s).framing = s.framing := rfl
@[simp] theorem event_tel (l : BitVec 4) (b : Byte) (s : State) : (event l b s).tel = s.tel := rfl
@[simp] theorem event_gates (l : BitVec 4) (b : Byte) (s : State) : (event l b s).gates = s.gates := rfl
@[simp] theorem event_fw (l : BitVec 4) (b : Byte) (s : State) : (event l b s).fw = s.fw := rfl
@[simp] theorem event_conn (l : BitVec 4) (b : Byte) (s : State) : (event l b s).conn = s.conn := rfl
@[simp] theorem event_txn (l : BitVec 4) (b : Byte) (s : State) : (event l b s).txn = s.txn := rfl
@[simp] theorem event_rx (l : BitVec 4) (b : Byte) (s : State) : (event l b s).rx = s.rx := rfl
@[simp] theorem event_tx (l : BitVec 4) (b : Byte) (s : State) : (event l b s).tx = s.tx := rfl
@[simp] theorem event_now (l : BitVec 4) (b : Byte) (s : State) : (event l b s).now = s.now := rfl
@[simp] theorem event_inputs (l : BitVec 4) (b : Byte) (s : State) : (event l b s).inputs = s.inputs := rfl
@[simp] theorem event_ticks (l : BitVec 4) (b : Byte) (s : State) : (event l b s).ticks = s.ticks := rfl
@[simp] theorem event_out (l : BitVec 4) (b : Byte) (s : State) : (event l b s).out = { s.out with evValid := true, evLabel := l, evInfo := b } := rfl

@[simp] theorem respond_cfg (ok : Bool) (e t l : StageOutcome) (s : State) : (respond ok e t l s).cfg = s.cfg := rfl
@[simp] theorem respond_framing (ok : Bool) (e t l : StageOutcome) (s : State) : (respond ok e t l s).framing = s.framing := rfl
@[simp] theorem respond_tel (ok : Bool) (e t l : StageOutcome) (s : State) : (respond ok e t l s).tel = s.tel := rfl
@[simp] theorem respond_gates (ok : Bool) (e t l : StageOutcome) (s : State) : (respond ok e t l s).gates = s.gates := rfl
@[simp] theorem respond_fw (ok : Bool) (e t l : StageOutcome) (s : State) : (respond ok e t l s).fw = s.fw := rfl
@[simp] theorem respond_conn (ok : Bool) (e t l : StageOutcome) (s : State) : (respond ok e t l s).conn = s.conn := rfl
@[simp] theorem respond_txn (ok : Bool) (e t l : StageOutcome) (s : State) : (respond ok e t l s).txn = s.txn := rfl
@[simp] theorem respond_rx (ok : Bool) (e t l : StageOutcome) (s : State) : (respond ok e t l s).rx = s.rx := rfl
@[simp] theorem respond_tx (ok : Bool) (e t l : StageOutcome) (s : State) : (respond ok e t l s).tx = s.tx := rfl
@[simp] theorem respond_now (ok : Bool) (e t l : StageOutcome) (s : State) : (respond ok e t l s).now = s.now := rfl
@[simp] theorem respond_inputs (ok : Bool) (e t l : StageOutcome) (s : State) : (respond ok e t l s).inputs = s.inputs := rfl
@[simp] theorem respond_ticks (ok : Bool) (e t l : StageOutcome) (s : State) : (respond ok e t l s).ticks = s.ticks := rfl
@[simp] theorem respond_out (ok : Bool) (e t l : StageOutcome) (s : State) : (respond ok e t l s).out = { s.out with
      rspValid := true, rspOk := ok, rspEnter := outcomeCode e, rspTarget := outcomeCode t, rspLeave := outcomeCode l } := rfl

@[simp] theorem frameReset_cfg (s : State) : (frameReset s).cfg = s.cfg := rfl
@[simp] theorem frameReset_framing (s : State) : (frameReset s).framing = { s.framing with sync := .idle, bufLen := 0 } := rfl
@[simp] theorem frameReset_tel (s : State) : (frameReset s).tel = s.tel := rfl
@[simp] theorem frameReset_gates (s : State) : (frameReset s).gates = s.gates := rfl
@[simp] theorem frameReset_fw (s : State) : (frameReset s).fw = s.fw := rfl
@[simp] theorem frameReset_conn (s : State) : (frameReset s).conn = s.conn := rfl
@[simp] theorem frameReset_txn (s : State) : (frameReset s).txn = s.txn := rfl
@[simp] theorem frameReset_rx (s : State) : (frameReset s).rx = s.rx := rfl
@[simp] theorem frameReset_tx (s : State) : (frameReset s).tx = s.tx := rfl
@[simp] theorem frameReset_now (s : State) : (frameReset s).now = s.now := rfl
@[simp] theorem frameReset_inputs (s : State) : (frameReset s).inputs = s.inputs := rfl
@[simp] theorem frameReset_ticks (s : State) : (frameReset s).ticks = s.ticks := rfl
@[simp] theorem frameReset_out (s : State) : (frameReset s).out = s.out := rfl

@[simp] theorem stampConn_cfg (s : State) : (stampConn s).cfg = s.cfg := rfl
@[simp] theorem stampConn_framing (s : State) : (stampConn s).framing = s.framing := rfl
@[simp] theorem stampConn_tel (s : State) : (stampConn s).tel = s.tel := rfl
@[simp] theorem stampConn_gates (s : State) : (stampConn s).gates = s.gates := rfl
@[simp] theorem stampConn_fw (s : State) : (stampConn s).fw = s.fw := rfl
@[simp] theorem stampConn_conn (s : State) : (stampConn s).conn = { ts := s.now, valid := true } := rfl
@[simp] theorem stampConn_txn (s : State) : (stampConn s).txn = s.txn := rfl
@[simp] theorem stampConn_rx (s : State) : (stampConn s).rx = s.rx := rfl
@[simp] theorem stampConn_tx (s : State) : (stampConn s).tx = s.tx := rfl
@[simp] theorem stampConn_now (s : State) : (stampConn s).now = s.now := rfl
@[simp] theorem stampConn_inputs (s : State) : (stampConn s).inputs = s.inputs := rfl
@[simp] theorem stampConn_ticks (s : State) : (stampConn s).ticks = s.ticks := rfl
@[simp] theorem stampConn_out (s : State) : (stampConn s).out = s.out := rfl

@[simp] theorem clearTxn_cfg (s : State) : (clearTxn s).cfg = s.cfg := rfl
@[simp] theorem clearTxn_framing (s : State) : (clearTxn s).framing = s.framing := rfl
@[simp] theorem clearTxn_tel (s : State) : (clearTxn s).tel = s.tel := rfl
@[simp] theorem clearTxn_gates (s : State) : (clearTxn s).gates = s.gates := rfl
@[simp] theorem clearTxn_fw (s : State) : (clearTxn s).fw = s.fw := rfl
@[simp] theorem clearTxn_conn (s : State) : (clearTxn s).conn = s.conn := rfl
@[simp] theorem clearTxn_txn (s : State) : (clearTxn s).txn = Transaction.cleared := rfl
@[simp] theorem clearTxn_rx (s : State) : (clearTxn s).rx = s.rx := rfl
@[simp] theorem clearTxn_tx (s : State) : (clearTxn s).tx = s.tx := rfl
@[simp] theorem clearTxn_now (s : State) : (clearTxn s).now = s.now := rfl
@[simp] theorem clearTxn_inputs (s : State) : (clearTxn s).inputs = s.inputs := rfl
@[simp] theorem clearTxn_ticks (s : State) : (clearTxn s).ticks = s.ticks := rfl
@[simp] theorem clearTxn_out (s : State) : (clearTxn s).out = s.out := rfl

@[simp] theorem send_cfg (g : Stage) (c : Byte) (a : List Byte) (s : State) : (send g c a s).cfg = s.cfg := rfl
@[simp] theorem send_framing (g : Stage) (c : Byte) (a : List Byte) (s : State) : (send g c a s).framing = s.framing := rfl
@[simp] theorem send_tel (g : Stage) (c : Byte) (a : List Byte) (s : State) : (send g c a s).tel = s.tel := rfl
@[simp] theorem send_gates (g : Stage) (c : Byte) (a : List Byte) (s : State) : (send g c a s).gates = s.gates := rfl
@[simp] theorem send_fw (g : Stage) (c : Byte) (a : List Byte) (s : State) : (send g c a s).fw = s.fw := rfl
@[simp] theorem send_conn (g : Stage) (c : Byte) (a : List Byte) (s : State) : (send g c a s).conn = s.conn := rfl
@[simp] theorem send_txn (g : Stage) (c : Byte) (a : List Byte) (s : State) : (send g c a s).txn = { s.txn with tSend := s.now, awaitCode := c, stage := g, state := .sent } := rfl
@[simp] theorem send_rx (g : Stage) (c : Byte) (a : List Byte) (s : State) : (send g c a s).rx = s.rx := rfl
@[simp] theorem send_tx (g : Stage) (c : Byte) (a : List Byte) (s : State) : (send g c a s).tx = s.tx ++ commandFrame c a := rfl
@[simp] theorem send_now (g : Stage) (c : Byte) (a : List Byte) (s : State) : (send g c a s).now = s.now := rfl
@[simp] theorem send_inputs (g : Stage) (c : Byte) (a : List Byte) (s : State) : (send g c a s).inputs = s.inputs := rfl
@[simp] theorem send_ticks (g : Stage) (c : Byte) (a : List Byte) (s : State) : (send g c a s).ticks = s.ticks := rfl
@[simp] theorem send_out (g : Stage) (c : Byte) (a : List Byte) (s : State) : (send g c a s).out = (txWrite (commandFrame c a) s).out := rfl

@[simp] theorem sample_cfg (s : State) : s.sample.cfg = s.cfg := rfl
@[simp] theorem sample_framing (s : State) : s.sample.framing = s.framing := rfl
@[simp] theorem sample_tel (s : State) : s.sample.tel = s.tel := rfl
@[simp] theorem sample_gates (s : State) : s.sample.gates = s.gates := rfl
@[simp] theorem sample_fw (s : State) : s.sample.fw = s.fw := rfl
@[simp] theorem sample_conn (s : State) : s.sample.conn = s.conn := rfl
@[simp] theorem sample_txn (s : State) : s.sample.txn = s.txn := rfl
@[simp] theorem sample_rx (s : State) : s.sample.rx = s.rx ++ s.input.arrivals := rfl
@[simp] theorem sample_tx (s : State) : s.sample.tx = s.tx := rfl
@[simp] theorem sample_now (s : State) : s.sample.now = s.input.now := rfl
@[simp] theorem sample_inputs (s : State) : s.sample.inputs = s.inputs.tail := rfl
@[simp] theorem sample_ticks (s : State) : s.sample.ticks = s.ticks + 1 := rfl
@[simp] theorem sample_out (s : State) : s.sample.out = { Outputs.quiet with reqReady := !s.input.rst && decide (s.txn.state = .idle) } := rfl

@[simp] theorem setFrameOk_cfg (r : Label) (s : State) : (setFrameOk r s).cfg = s.cfg := rfl
@[simp] theorem setFrameOk_framing (r : Label) (s : State) : (setFrameOk r s).framing = s.framing := rfl
@[simp] theorem setFrameOk_tel (r : Label) (s : State) : (setFrameOk r s).tel = s.tel := rfl
@[simp] theorem setFrameOk_gates (r : Label) (s : State) : (setFrameOk r s).gates = s.gates := rfl
@[simp] theorem setFrameOk_fw (r : Label) (s : State) : (setFrameOk r s).fw = s.fw := rfl
@[simp] theorem setFrameOk_conn (r : Label) (s : State) : (setFrameOk r s).conn = s.conn := rfl
@[simp] theorem setFrameOk_txn (r : Label) (s : State) : (setFrameOk r s).txn = s.txn := rfl
@[simp] theorem setFrameOk_rx (r : Label) (s : State) : (setFrameOk r s).rx = s.rx := rfl
@[simp] theorem setFrameOk_tx (r : Label) (s : State) : (setFrameOk r s).tx = s.tx := rfl
@[simp] theorem setFrameOk_now (r : Label) (s : State) : (setFrameOk r s).now = s.now := rfl
@[simp] theorem setFrameOk_inputs (r : Label) (s : State) : (setFrameOk r s).inputs = s.inputs := rfl
@[simp] theorem setFrameOk_ticks (r : Label) (s : State) : (setFrameOk r s).ticks = s.ticks := rfl
@[simp] theorem setFrameOk_out (r : Label) (s : State) : (setFrameOk r s).out = { s.out with frameOk := r.frameOk } := rfl

@[simp] theorem observe_cfg (r : Label) (s : State) : (observe r s).cfg = s.cfg := rfl
@[simp] theorem observe_framing (r : Label) (s : State) : (observe r s).framing = s.framing := rfl
@[simp] theorem observe_tel (r : Label) (s : State) : (observe r s).tel = s.tel := rfl
@[simp] theorem observe_gates (r : Label) (s : State) : (observe r s).gates = s.gates := rfl
@[simp] theorem observe_fw (r : Label) (s : State) : (observe r s).fw = s.fw := rfl
@[simp] theorem observe_conn (r : Label) (s : State) : (observe r s).conn = s.conn := rfl
@[simp] theorem observe_txn (r : Label) (s : State) : (observe r s).txn = { s.txn with state := observedState s.txn r } := rfl
@[simp] theorem observe_rx (r : Label) (s : State) : (observe r s).rx = s.rx := rfl
@[simp] theorem observe_tx (r : Label) (s : State) : (observe r s).tx = s.tx := rfl
@[simp] theorem observe_now (r : Label) (s : State) : (observe r s).now = s.now := rfl
@[simp] theorem observe_inputs (r : Label) (s : State) : (observe r s).inputs = s.inputs := rfl
@[simp] theorem observe_ticks (r : Label) (s : State) : (observe r s).ticks = s.ticks := rfl
@[simp] theorem observe_out (r : Label) (s : State) : (observe r s).out = s.out := rfl

@[simp] theorem raiseTimeout_cfg (s : State) : (raiseTimeout s).cfg = s.cfg := rfl
@[simp] theorem raiseTimeout_framing (s : State) : (raiseTimeout s).framing = s.framing := rfl
@[simp] theorem raiseTimeout_tel (s : State) : (raiseTimeout s).tel = s.tel := rfl
@[simp] theorem raiseTimeout_gates (s : State) : (raiseTimeout s).gates = s.gates := rfl
@[simp] theorem raiseTimeout_fw (s : State) : (raiseTimeout s).fw = s.fw := rfl
@[simp] theorem raiseTimeout_conn (s : State) : (raiseTimeout s).conn = s.conn := rfl
@[simp] theorem raiseTimeout_txn (s : State) : (raiseTimeout s).txn = { s.txn with state := .timedOut } := rfl
@[simp] theorem raiseTimeout_rx (s : State) : (raiseTimeout s).rx = s.rx := rfl
@[simp] theorem raiseTimeout_tx (s : State) : (raiseTimeout s).tx = s.tx := rfl
@[simp] theorem raiseTimeout_now (s : State) : (raiseTimeout s).now = s.now := rfl
@[simp] theorem raiseTimeout_inputs (s : State) : (raiseTimeout s).inputs = s.inputs := rfl
@[simp] theorem raiseTimeout_ticks (s : State) : (raiseTimeout s).ticks = s.ticks := rfl
@[simp] theorem raiseTimeout_out (s : State) : (raiseTimeout s).out = { s.out with evValid := true, evLabel := txnTimeoutCode, evInfo := s.txn.awaitCode } := rfl

@[simp] theorem latchRequest_cfg (c : Byte) (n : BitVec 5) (a : Vector Byte argSlots) (s : State) : (latchRequest c n a s).cfg = s.cfg := rfl
@[simp] theorem latchRequest_framing (c : Byte) (n : BitVec 5) (a : Vector Byte argSlots) (s : State) : (latchRequest c n a s).framing = s.framing := rfl
@[simp] theorem latchRequest_tel (c : Byte) (n : BitVec 5) (a : Vector Byte argSlots) (s : State) : (latchRequest c n a s).tel = s.tel := rfl
@[simp] theorem latchRequest_gates (c : Byte) (n : BitVec 5) (a : Vector Byte argSlots) (s : State) : (latchRequest c n a s).gates = s.gates := rfl
@[simp] theorem latchRequest_fw (c : Byte) (n : BitVec 5) (a : Vector Byte argSlots) (s : State) : (latchRequest c n a s).fw = s.fw := rfl
@[simp] theorem latchRequest_conn (c : Byte) (n : BitVec 5) (a : Vector Byte argSlots) (s : State) : (latchRequest c n a s).conn = s.conn := rfl
@[simp] theorem latchRequest_txn (c : Byte) (n : BitVec 5) (a : Vector Byte argSlots) (s : State) : (latchRequest c n a s).txn = { s.txn with
      tgtCode := c, tgtNargs := n, tgtArgs := latchedArgs n a, resEnter := .none, resTarget := .none, resLeave := .none } := rfl
@[simp] theorem latchRequest_rx (c : Byte) (n : BitVec 5) (a : Vector Byte argSlots) (s : State) : (latchRequest c n a s).rx = s.rx := rfl
@[simp] theorem latchRequest_tx (c : Byte) (n : BitVec 5) (a : Vector Byte argSlots) (s : State) : (latchRequest c n a s).tx = s.tx := rfl
@[simp] theorem latchRequest_now (c : Byte) (n : BitVec 5) (a : Vector Byte argSlots) (s : State) : (latchRequest c n a s).now = s.now := rfl
@[simp] theorem latchRequest_inputs (c : Byte) (n : BitVec 5) (a : Vector Byte argSlots) (s : State) : (latchRequest c n a s).inputs = s.inputs := rfl
@[simp] theorem latchRequest_ticks (c : Byte) (n : BitVec 5) (a : Vector Byte argSlots) (s : State) : (latchRequest c n a s).ticks = s.ticks := rfl
@[simp] theorem latchRequest_out (c : Byte) (n : BitVec 5) (a : Vector Byte argSlots) (s : State) : (latchRequest c n a s).out = s.out := rfl

@[simp] theorem storeGates_cfg (r : Vector Byte 24) (s : State) : (storeGates r s).cfg = s.cfg := rfl
@[simp] theorem storeGates_framing (r : Vector Byte 24) (s : State) : (storeGates r s).framing = s.framing := rfl
@[simp] theorem storeGates_tel (r : Vector Byte 24) (s : State) : (storeGates r s).tel = s.tel := rfl
@[simp] theorem storeGates_gates (r : Vector Byte 24) (s : State) : (storeGates r s).gates = gatesOf s.cfg r := rfl
@[simp] theorem storeGates_fw (r : Vector Byte 24) (s : State) : (storeGates r s).fw = s.fw := rfl
@[simp] theorem storeGates_conn (r : Vector Byte 24) (s : State) : (storeGates r s).conn = s.conn := rfl
@[simp] theorem storeGates_txn (r : Vector Byte 24) (s : State) : (storeGates r s).txn = s.txn := rfl
@[simp] theorem storeGates_rx (r : Vector Byte 24) (s : State) : (storeGates r s).rx = s.rx := rfl
@[simp] theorem storeGates_tx (r : Vector Byte 24) (s : State) : (storeGates r s).tx = s.tx := rfl
@[simp] theorem storeGates_now (r : Vector Byte 24) (s : State) : (storeGates r s).now = s.now := rfl
@[simp] theorem storeGates_inputs (r : Vector Byte 24) (s : State) : (storeGates r s).inputs = s.inputs := rfl
@[simp] theorem storeGates_ticks (r : Vector Byte 24) (s : State) : (storeGates r s).ticks = s.ticks := rfl
@[simp] theorem storeGates_out (r : Vector Byte 24) (s : State) : (storeGates r s).out = s.out := rfl

@[simp] theorem storeFirmware_cfg (r : Vector Byte 8) (s : State) : (storeFirmware r s).cfg = s.cfg := rfl
@[simp] theorem storeFirmware_framing (r : Vector Byte 8) (s : State) : (storeFirmware r s).framing = s.framing := rfl
@[simp] theorem storeFirmware_tel (r : Vector Byte 8) (s : State) : (storeFirmware r s).tel = s.tel := rfl
@[simp] theorem storeFirmware_gates (r : Vector Byte 8) (s : State) : (storeFirmware r s).gates = s.gates := rfl
@[simp] theorem storeFirmware_fw (r : Vector Byte 8) (s : State) : (storeFirmware r s).fw = firmwareOf s.cfg r := rfl
@[simp] theorem storeFirmware_conn (r : Vector Byte 8) (s : State) : (storeFirmware r s).conn = s.conn := rfl
@[simp] theorem storeFirmware_txn (r : Vector Byte 8) (s : State) : (storeFirmware r s).txn = s.txn := rfl
@[simp] theorem storeFirmware_rx (r : Vector Byte 8) (s : State) : (storeFirmware r s).rx = s.rx := rfl
@[simp] theorem storeFirmware_tx (r : Vector Byte 8) (s : State) : (storeFirmware r s).tx = s.tx := rfl
@[simp] theorem storeFirmware_now (r : Vector Byte 8) (s : State) : (storeFirmware r s).now = s.now := rfl
@[simp] theorem storeFirmware_inputs (r : Vector Byte 8) (s : State) : (storeFirmware r s).inputs = s.inputs := rfl
@[simp] theorem storeFirmware_ticks (r : Vector Byte 8) (s : State) : (storeFirmware r s).ticks = s.ticks := rfl
@[simp] theorem storeFirmware_out (r : Vector Byte 8) (s : State) : (storeFirmware r s).out = s.out := rfl

@[simp] theorem resetRegs_cfg (s : State) : (resetRegs s).cfg = s.cfg := rfl
@[simp] theorem resetRegs_framing (s : State) : (resetRegs s).framing = { s.framing with sync := .idle, bufLen := 0, bufClass := .data } := rfl
@[simp] theorem resetRegs_tel (s : State) : (resetRegs s).tel = Telemetry.reset := rfl
@[simp] theorem resetRegs_gates (s : State) : (resetRegs s).gates = GateConfig.reset := rfl
@[simp] theorem resetRegs_fw (s : State) : (resetRegs s).fw = Firmware.reset := rfl
@[simp] theorem resetRegs_conn (s : State) : (resetRegs s).conn = Connectivity.reset := rfl
@[simp] theorem resetRegs_txn (s : State) : (resetRegs s).txn = Transaction.cleared := rfl
@[simp] theorem resetRegs_rx (s : State) : (resetRegs s).rx = s.rx := rfl
@[simp] theorem resetRegs_tx (s : State) : (resetRegs s).tx = s.tx := rfl
@[simp] theorem resetRegs_now (s : State) : (resetRegs s).now = s.now := rfl
@[simp] theorem resetRegs_inputs (s : State) : (resetRegs s).inputs = s.inputs := rfl
@[simp] theorem resetRegs_ticks (s : State) : (resetRegs s).ticks = s.ticks := rfl
@[simp] theorem resetRegs_out (s : State) : (resetRegs s).out = s.out := rfl

@[simp] theorem afterStore_cfg (b : Byte) (s : State) : (afterStore b s).cfg = s.cfg := rfl
@[simp] theorem afterStore_framing (b : Byte) (s : State) : (afterStore b s).framing = { s.framing with
      buf := Memory.write s.framing.buf s.framing.bufLen.toNat b, bufLen := s.framing.bufLen + 1 } := rfl
@[simp] theorem afterStore_tel (b : Byte) (s : State) : (afterStore b s).tel = s.tel := rfl
@[simp] theorem afterStore_gates (b : Byte) (s : State) : (afterStore b s).gates = s.gates := rfl
@[simp] theorem afterStore_fw (b : Byte) (s : State) : (afterStore b s).fw = s.fw := rfl
@[simp] theorem afterStore_conn (b : Byte) (s : State) : (afterStore b s).conn = s.conn := rfl
@[simp] theorem afterStore_txn (b : Byte) (s : State) : (afterStore b s).txn = s.txn := rfl
@[simp] theorem afterStore_rx (b : Byte) (s : State) : (afterStore b s).rx = s.rx.tail := rfl
@[simp] theorem afterStore_tx (b : Byte) (s : State) : (afterStore b s).tx = s.tx := rfl
@[simp] theorem afterStore_now (b : Byte) (s : State) : (afterStore b s).now = s.now := rfl
@[simp] theorem afterStore_inputs (b : Byte) (s : State) : (afterStore b s).inputs = s.inputs := rfl
@[simp] theorem afterStore_ticks (b : Byte) (s : State) : (afterStore b s).ticks = s.ticks := rfl
@[simp] theorem afterStore_out (b : Byte) (s : State) : (afterStore b s).out = { s.out with rxReady := true } := rfl

@[simp] theorem recordOutcome_cfg (o : StageOutcome) (s : State) : (recordOutcome o s).cfg = s.cfg := by unfold recordOutcome; split <;> rfl
@[simp] theorem recordOutcome_framing (o : StageOutcome) (s : State) : (recordOutcome o s).framing = s.framing := by unfold recordOutcome; split <;> rfl
@[simp] theorem recordOutcome_tel (o : StageOutcome) (s : State) : (recordOutcome o s).tel = s.tel := by unfold recordOutcome; split <;> rfl
@[simp] theorem recordOutcome_gates (o : StageOutcome) (s : State) : (recordOutcome o s).gates = s.gates := by unfold recordOutcome; split <;> rfl
@[simp] theorem recordOutcome_fw (o : StageOutcome) (s : State) : (recordOutcome o s).fw = s.fw := by unfold recordOutcome; split <;> rfl
@[simp] theorem recordOutcome_conn (o : StageOutcome) (s : State) : (recordOutcome o s).conn = s.conn := by unfold recordOutcome; split <;> rfl
@[simp] theorem recordOutcome_rx (o : StageOutcome) (s : State) : (recordOutcome o s).rx = s.rx := by unfold recordOutcome; split <;> rfl
@[simp] theorem recordOutcome_tx (o : StageOutcome) (s : State) : (recordOutcome o s).tx = s.tx := by unfold recordOutcome; split <;> rfl
@[simp] theorem recordOutcome_now (o : StageOutcome) (s : State) : (recordOutcome o s).now = s.now := by unfold recordOutcome; split <;> rfl
@[simp] theorem recordOutcome_inputs (o : StageOutcome) (s : State) : (recordOutcome o s).inputs = s.inputs := by unfold recordOutcome; split <;> rfl
@[simp] theorem recordOutcome_ticks (o : StageOutcome) (s : State) : (recordOutcome o s).ticks = s.ticks := by unfold recordOutcome; split <;> rfl
@[simp] theorem recordOutcome_out (o : StageOutcome) (s : State) : (recordOutcome o s).out = s.out := by unfold recordOutcome; split <;> rfl
@[simp] theorem sample_input_framing (s : State) : heldBytes s.sample = heldBytes s := rfl

@[simp] theorem sendCmd_eq (k : Cmd) (a : List Byte) (s : State) : sendCmd k a s = send (stageOf k) k.code a s := rfl

end Sys2Proof.Machine
end

