-- ==== Sys2Proof/Laws/Buffer.lean ====
section
/-! SUPPORT. The frame in progress as a list of bytes: what reads of the buffer answer, what an append does to it, and the
marker check and the dispatch on that list. -/
namespace Sys2Proof.Machine
open Sys2Proof

/-! ## Lists of written cells -/

theorem filterMap_range_length_le (f : Nat → Option Byte) (n : Nat) : ((List.range n).filterMap f).length ≤ n := by
  simpa using List.length_filterMap_le f (List.range n)

/-- A collection of `n` cells that lost none reads back index by index. -/
theorem filterMap_range_full (f : Nat → Option Byte) (n : Nat) (h : ((List.range n).filterMap f).length = n) (a : Nat)
    (ha : a < n) : f a = ((List.range n).filterMap f)[a]? := by
  induction n with
  | zero => omega
  | succ n ih =>
    have hle := filterMap_range_length_le f n
    rw [List.range_succ, List.filterMap_append, List.length_append] at h
    cases hf : f n with
    | none => simp [hf] at h; omega
    | some v =>
      have hn : ((List.range n).filterMap f).length = n := by simp [hf] at h; exact h
      rw [List.range_succ, List.filterMap_append]
      by_cases e : a = n
      · subst e; rw [List.getElem?_append_right (by omega)]; simp [hf, hn]
      · rw [List.getElem?_append_left (by omega)]; exact ih hn (by omega)

theorem filterMap_range_congr (f g : Nat → Option Byte) (n : Nat) (h : ∀ a, a < n → f a = g a) :
    (List.range n).filterMap f = (List.range n).filterMap g :=
  List.filterMap_congr fun a ha => h a (by simpa using ha)

/-! ## Reads -/

/-- With every byte of the frame written, a read below `buf_len` answers that byte. -/
theorem bufByte_held (s : State) (a : Nat) (hs : (heldBytes s).length = s.framing.bufLen.toNat)
    (ha : a < s.framing.bufLen.toNat) : ∃ b, (heldBytes s)[a]? = some b ∧ bufByte s a = .ok b := by
  have hr := filterMap_range_full _ _ hs a ha
  refine ⟨(heldBytes s)[a]'(by omega), by simp [hs, ha], ?_⟩
  have : Memory.read s.framing.buf a = some ((heldBytes s)[a]'(by omega)) := by
    rw [hr]; simp [heldBytes]
  simp [bufByte, ha, this]

theorem bufRange_held (s : State) (n a : Nat) (hs : (heldBytes s).length = s.framing.bufLen.toNat)
    (ha : a + n ≤ s.framing.bufLen.toNat) : bufRange s a n = .ok (((heldBytes s).drop a).take n) := by
  induction n generalizing a with
  | zero => simp [bufRange]
  | succ n ih =>
    obtain ⟨b, hb, hr⟩ := bufByte_held s a hs (by omega)
    have hl : a < (heldBytes s).length := by omega
    rw [bufRange, hr, ih (a + 1) (by omega)]
    rw [List.getElem?_eq_getElem hl] at hb
    rw [List.drop_eq_getElem_cons hl, List.take_succ_cons]
    simp_all

/-- The marker check on a frame of at least 8 written bytes. -/
theorem markersMatch_held (s : State) (hs : (heldBytes s).length = s.framing.bufLen.toNat)
    (h8 : minCheckLen ≤ s.framing.bufLen.toNat) :
    markersMatch s = .ok (hasMarkers s.framing.bufClass (heldBytes s)) := by
  simp only [minCheckLen] at h8
  have ht : (((heldBytes s).drop (s.framing.bufLen.toNat - 4)).take 4) =
      (heldBytes s).drop (s.framing.bufLen.toNat - 4) := by apply List.take_of_length_le; simp; omega
  rw [markersMatch, bufRange_held s 4 0 hs (by omega), bufRange_held s 4 _ hs (by omega), ht]
  simp [hasMarkers, hs]

/-- The dispatch of a frame of written bytes. -/
theorem dispatchFrame_held (s : State) (hs : (heldBytes s).length = s.framing.bufLen.toNat) :
    dispatchFrame s = .ok (match s.framing.bufClass with
      | .data => parseData (heldBytes s) s
      | .cmd => parseCmd (heldBytes s) s) := by
  rw [dispatchFrame, bufRange_held s _ 0 hs (by omega)]
  have : ((heldBytes s).drop 0).take s.framing.bufLen.toNat = heldBytes s := by rw [← hs]; simp
  rw [this]
  cases s.framing.bufClass <;> rfl

/-! ## Appends -/

@[simp] theorem afterStore_sync (b : Byte) (s : State) : (afterStore b s).framing.sync = s.framing.sync := rfl
@[simp] theorem afterStore_bufClass (b : Byte) (s : State) : (afterStore b s).framing.bufClass = s.framing.bufClass := rfl
@[simp] theorem afterStore_buf (b : Byte) (s : State) :
    (afterStore b s).framing.buf = Memory.write s.framing.buf s.framing.bufLen.toNat b := rfl

theorem afterStore_bufLen (b : Byte) (s : State) (h : s.framing.bufLen.toNat < bufCap) :
    (afterStore b s).framing.bufLen.toNat = s.framing.bufLen.toNat + 1 := by
  simp only [bufCap] at h; simp [afterStore]; omega

/-- An append below `BUF_CAP` stores its byte. -/
theorem storeByte_eq (b : Byte) (s : State) (h : s.framing.bufLen.toNat < bufCap) : storeByte b s = .ok (afterStore b s) := by
  simp [storeByte, bufWrite, h, afterStore, rxRead]

/-- The frame in progress after an append. -/
theorem heldBytes_afterStore (b : Byte) (s : State) (h : s.framing.bufLen.toNat < bufCap) :
    heldBytes (afterStore b s) = heldBytes s ++ [b] := by
  unfold heldBytes
  rw [afterStore_bufLen b s h, List.range_succ, List.filterMap_append]
  congr 1
  · apply filterMap_range_congr
    intro a ha
    rw [afterStore_buf, read_write_other _ _ _ _ (by omega)]
  · simp

theorem heldBytes_afterStore_length (b : Byte) (s : State) (h : s.framing.bufLen.toNat < bufCap)
    (hs : (heldBytes s).length = s.framing.bufLen.toNat) :
    (heldBytes (afterStore b s)).length = (afterStore b s).framing.bufLen.toNat := by
  rw [heldBytes_afterStore b s h, afterStore_bufLen b s h]; simp [hs]

/-- The frame a parser is called on, by its class. -/
def parseFrame (s : State) : State × Label :=
  match s.framing.bufClass with
  | .data => parseData (heldBytes s) s
  | .cmd => parseCmd (heldBytes s) s

/-- All that an append to a frame of written bytes can do. -/
theorem append_held (b : Byte) (s : State) (h : s.framing.bufLen.toNat < bufCap)
    (hs : (heldBytes s).length = s.framing.bufLen.toNat) :
    append b s = .ok (
      if minCheckLen ≤ s.framing.bufLen.toNat + 1 ∧ hasMarkers s.framing.bufClass (heldBytes s ++ [b]) = true then
        parseFrame (afterStore b s)
      else endStep .accumulating (afterStore b s)) := by
  have hl := afterStore_bufLen b s h
  have hf := heldBytes_afterStore_length b s h hs
  rw [append, storeByte_eq b s h]
  simp only [afterAppend]
  split
  · rename_i h8
    rw [if_neg (by omega)]
  · rename_i h8
    rw [markersMatch_held _ hf (by omega), dispatchFrame_held _ hf, afterStore_bufClass, heldBytes_afterStore b s h]
    cases hm : hasMarkers s.framing.bufClass (heldBytes s ++ [b])
    · simp
    · rw [if_pos ⟨by omega, rfl⟩]; simp [parseFrame, heldBytes_afterStore b s h]

end Sys2Proof.Machine
end

