-- ==== Sys2Proof/Laws/Clock.lean ====
section
/-! SUPPORT. The clock: what a tick samples, what `elapsed` answers for every width, and the inputs of a state under an
environment. -/
namespace Sys2Proof.Machine
open Sys2Proof

/-- A tick's clock sample has `CLOCK_W` bits (R46). -/
theorem input_now_lt (s : State) : s.input.now < 2 ^ s.cfg.clockW := Nat.mod_lt _ (Nat.two_pow_pos _)

/-- The inputs of a tick are the next that the environment presents, of the clock the bits the port has (R42, R46). -/
theorem input_cons (s : State) (i : TickInput) (later : List TickInput) (h : s.inputs = i :: later) :
    s.input = { i with now := i.now % 2 ^ s.cfg.clockW } := by simp [State.input, State.presented, h]

/-- An elapsed time has `CLOCK_W` bits (R9). -/
theorem elapsed_lt (cfg : Config) (now t : Nat) : elapsed cfg now t < 2 ^ cfg.clockW := Nat.mod_lt _ (Nat.two_pow_pos _)

/-- Only the lowest `CLOCK_W` bits of a clock value matter (R46). -/
@[simp] theorem elapsed_mod (cfg : Config) (now t : Nat) : elapsed cfg (now % 2 ^ cfg.clockW) t = elapsed cfg now t := by
  simp [elapsed, Nat.mod_add_mod]

@[simp] theorem elapsed_mod_right (cfg : Config) (now t : Nat) : elapsed cfg now (t % 2 ^ cfg.clockW) = elapsed cfg now t := by
  simp [elapsed]

/-- Across any wrap, fewer than `2^CLOCK_W` milliseconds later the elapsed time is what passed (R202). -/
theorem elapsed_add (cfg : Config) (t d : Nat) (h : d < 2 ^ cfg.clockW) : elapsed cfg (t + d) t = d := by
  unfold elapsed
  have hp := Nat.two_pow_pos cfg.clockW
  generalize 2 ^ cfg.clockW = w at *
  have ht := Nat.mod_lt t hp
  have hd := Nat.div_add_mod t w
  have he : t + d + (w - t % w) = d + w * (t / w + 1) := by
    rw [Nat.mul_add, Nat.mul_one]; omega
  rw [he, Nat.add_mul_mod_self_left, Nat.mod_eq_of_lt h]

/-- `connected` at one reading: a frame has been parsed and less than the window has passed since (R252). -/
theorem connected_iff (s : State) (w : StaleWindow s.cfg) (now : Nat) :
    connected s w now = true ↔ s.conn.valid = true ∧ elapsed s.cfg now s.conn.ts < w.val := by simp [connected]

/-- The range test of `STALE_WINDOW_MS` accepts exactly the values below `2^CLOCK_W` and keeps them (R5, D28). -/
theorem staleWindowOf_eq_some (cfg : Config) (ms : Nat) (w : StaleWindow cfg) :
    staleWindowOf cfg ms = some w ↔ w.val = ms := by
  obtain ⟨n, hn⟩ := w
  unfold staleWindowOf
  split
  · simp [Subtype.ext_iff, eq_comm]
  · simp; omega

/-- The deadline test of a wait on the tick's own sample (R201). -/
theorem deadlinePassed_sample (s : State) :
    deadlinePassed s.sample = true ↔ s.cfg.ackTimeoutMs ≤ elapsed s.cfg s.input.now s.txn.tSend := decide_eq_true_iff

@[simp] theorem under_cfg (env : Nat → TickInput) (n : Nat) (s : State) : (s.under env n).cfg = s.cfg := rfl
@[simp] theorem under_framing (env : Nat → TickInput) (n : Nat) (s : State) : (s.under env n).framing = s.framing := rfl
@[simp] theorem under_txn (env : Nat → TickInput) (n : Nat) (s : State) : (s.under env n).txn = s.txn := rfl
@[simp] theorem under_rx (env : Nat → TickInput) (n : Nat) (s : State) : (s.under env n).rx = s.rx := rfl
@[simp] theorem under_inputs (env : Nat → TickInput) (n : Nat) (s : State) :
    (s.under env n).inputs = (List.range n).map env := rfl

/-- The first tick under an environment makes its first move; the environment's later moves stay to come. -/
theorem under_succ_inputs (env : Nat → TickInput) (n : Nat) (s : State) :
    (s.under env (n + 1)).inputs = env 0 :: (List.range n).map (fun k => env (k + 1)) := by
  simp [State.under, List.range_succ_eq_map]

end Sys2Proof.Machine
end

