-- ==== Sys2Proof/Laws/PerInstr.lean ====
section
/-! SUPPORT. A family of facts about every instruction: its encoding is a pattern of its own format, and a frame has 10 to 40
bytes (R82, R83, R84, R99). -/
namespace Sys2Proof.Laws
open Sys2Proof

/-- A pattern of a format, its frame no longer than the frame buffer. -/
def OfFormat : Code → Format → Prop
  | .byte .., f => f = .b
  | .data fr, f => f = .df ∧ envelope ≤ fr.length ∧ fr.length ≤ bufCap
  | .ack fr, f => f = .cf ∧ envelope ≤ fr.length ∧ fr.length ≤ bufCap
  | .cmd fr, f => f = .tf ∧ envelope ≤ fr.length ∧ fr.length ≤ bufCap
  | .tick .., f => f = .h

/-- The encoding of a well-formed instruction is a pattern of the instruction's format. -/
def FitsFormat.Statement (i : Instr) : Prop := i.wf = true → OfFormat (encode i) i.format

theorem frame_fits (cls : FrameClass) (p : List Byte) (h : p.length ≤ 30) :
    envelope ≤ (frameOf cls p).length ∧ (frameOf cls p).length ≤ bufCap := by
  rw [frameOf_length]; simp only [envelope, bufCap]; omega

theorem FitsFormat.idleSkip (b : Byte) : FitsFormat.Statement (.idleSkip b) := fun _ => rfl

theorem FitsFormat.sofData : FitsFormat.Statement .sofData := fun _ => rfl

theorem FitsFormat.sofCmd : FitsFormat.Statement .sofCmd := fun _ => rfl

theorem FitsFormat.append (b : Byte) : FitsFormat.Statement (.append b) := fun _ => rfl

theorem FitsFormat.overrun (b : Byte) : FitsFormat.Statement (.overrun b) := fun _ => rfl

theorem FitsFormat.dataEng (rest : List Byte) : FitsFormat.Statement (.dataEng rest) := by
  intro h; simp [Instr.wf] at h
  exact ⟨rfl, frame_fits _ _ (by simp; omega)⟩

theorem FitsFormat.dataNormal (tt : Byte) (md : BitVec 16) (me : Byte) (sd : BitVec 16) (se dd u : Byte) :
    FitsFormat.Statement (.dataNormal tt md me sd se dd u) :=
  fun _ => ⟨rfl, frame_fits _ _ (by simp)⟩

theorem FitsFormat.dataUnknown (p : List Byte) : FitsFormat.Statement (.dataUnknown p) := by
  intro h; simp [Instr.wf] at h
  exact ⟨rfl, frame_fits _ _ h.1⟩

theorem FitsFormat.ackEnterCfg (h : Byte) (st : BitVec 16) (r : Vector Byte 4) :
    FitsFormat.Statement (.ackEnterCfg h st r) :=
  fun _ => ⟨rfl, frame_fits _ _ (by simp [ackPayload])⟩

theorem FitsFormat.ackLeaveCfg (h : Byte) (st : BitVec 16) : FitsFormat.Statement (.ackLeaveCfg h st) :=
  fun _ => ⟨rfl, frame_fits _ _ (by simp [ackPayload])⟩

theorem FitsFormat.ackSetMaxGate (h : Byte) (st : BitVec 16) : FitsFormat.Statement (.ackSetMaxGate h st) :=
  fun _ => ⟨rfl, frame_fits _ _ (by simp [ackPayload])⟩

theorem FitsFormat.ackQueryCfg (h : Byte) (st : BitVec 16) (r : Vector Byte 24) :
    FitsFormat.Statement (.ackQueryCfg h st r) :=
  fun _ => ⟨rfl, frame_fits _ _ (by simp [ackPayload])⟩

theorem FitsFormat.ackSetSens (h : Byte) (st : BitVec 16) : FitsFormat.Statement (.ackSetSens h st) :=
  fun _ => ⟨rfl, frame_fits _ _ (by simp [ackPayload])⟩

theorem FitsFormat.ackFwVersion (h : Byte) (st : BitVec 16) (r : Vector Byte 8) :
    FitsFormat.Statement (.ackFwVersion h st r) :=
  fun _ => ⟨rfl, frame_fits _ _ (by simp [ackPayload])⟩

theorem FitsFormat.ackFactoryReset (h : Byte) (st : BitVec 16) : FitsFormat.Statement (.ackFactoryReset h st) :=
  fun _ => ⟨rfl, frame_fits _ _ (by simp [ackPayload])⟩

theorem FitsFormat.ackRestart (h : Byte) (st : BitVec 16) : FitsFormat.Statement (.ackRestart h st) :=
  fun _ => ⟨rfl, frame_fits _ _ (by simp [ackPayload])⟩

theorem FitsFormat.ackEngStart (h : Byte) (st : BitVec 16) : FitsFormat.Statement (.ackEngStart h st) :=
  fun _ => ⟨rfl, frame_fits _ _ (by simp [ackPayload])⟩

theorem FitsFormat.ackEngStop (h : Byte) (st : BitVec 16) : FitsFormat.Statement (.ackEngStop h st) :=
  fun _ => ⟨rfl, frame_fits _ _ (by simp [ackPayload])⟩

theorem FitsFormat.ackUnknown (p : List Byte) : FitsFormat.Statement (.ackUnknown p) := by
  intro h; simp [Instr.wf] at h
  exact ⟨rfl, frame_fits _ _ h.1⟩

theorem FitsFormat.cmdEnterCfg (a : List Byte) : FitsFormat.Statement (.cmdEnterCfg a) := by
  intro h; simp [Instr.wf, argSlots] at h
  exact ⟨rfl, frame_fits _ _ (by simp; omega)⟩

theorem FitsFormat.cmdLeaveCfg (a : List Byte) : FitsFormat.Statement (.cmdLeaveCfg a) := by
  intro h; simp [Instr.wf, argSlots] at h
  exact ⟨rfl, frame_fits _ _ (by simp; omega)⟩

theorem FitsFormat.cmdSetMaxGate (a : List Byte) : FitsFormat.Statement (.cmdSetMaxGate a) := by
  intro h; simp [Instr.wf, argSlots] at h
  exact ⟨rfl, frame_fits _ _ (by simp; omega)⟩

theorem FitsFormat.cmdQueryCfg (a : List Byte) : FitsFormat.Statement (.cmdQueryCfg a) := by
  intro h; simp [Instr.wf, argSlots] at h
  exact ⟨rfl, frame_fits _ _ (by simp; omega)⟩

theorem FitsFormat.cmdEngStart (a : List Byte) : FitsFormat.Statement (.cmdEngStart a) := by
  intro h; simp [Instr.wf, argSlots] at h
  exact ⟨rfl, frame_fits _ _ (by simp; omega)⟩

theorem FitsFormat.cmdEngStop (a : List Byte) : FitsFormat.Statement (.cmdEngStop a) := by
  intro h; simp [Instr.wf, argSlots] at h
  exact ⟨rfl, frame_fits _ _ (by simp; omega)⟩

theorem FitsFormat.cmdSetSens (a : List Byte) : FitsFormat.Statement (.cmdSetSens a) := by
  intro h; simp [Instr.wf, argSlots] at h
  exact ⟨rfl, frame_fits _ _ (by simp; omega)⟩

theorem FitsFormat.cmdFwVersion (a : List Byte) : FitsFormat.Statement (.cmdFwVersion a) := by
  intro h; simp [Instr.wf, argSlots] at h
  exact ⟨rfl, frame_fits _ _ (by simp; omega)⟩

theorem FitsFormat.cmdFactoryReset (a : List Byte) : FitsFormat.Statement (.cmdFactoryReset a) := by
  intro h; simp [Instr.wf, argSlots] at h
  exact ⟨rfl, frame_fits _ _ (by simp; omega)⟩

theorem FitsFormat.cmdRestart (a : List Byte) : FitsFormat.Statement (.cmdRestart a) := by
  intro h; simp [Instr.wf, argSlots] at h
  exact ⟨rfl, frame_fits _ _ (by simp; omega)⟩

theorem FitsFormat.reset : FitsFormat.Statement .reset := fun _ => rfl

theorem FitsFormat.reqAccept (c : Byte) (n : BitVec 5) (a : Vector Byte argSlots) :
    FitsFormat.Statement (.reqAccept c n a) := fun _ => rfl

theorem FitsFormat.poll : FitsFormat.Statement .poll := fun _ => rfl

theorem FitsFormat.nop : FitsFormat.Statement .nop := fun _ => rfl

theorem FitsFormat.waitTick : FitsFormat.Statement .waitTick := fun _ => rfl

theorem FitsFormat.stageAdvance : FitsFormat.Statement .stageAdvance := fun _ => rfl

end Sys2Proof.Laws
end

