-- ==== Sys2Proof/Laws/Sync.lean ====
section
/-! SUPPORT. Everything a parser, a synchronizer step and a POLL can do, said once: what the result's label tells of Sensor
State, and what no step touches. -/
namespace Sys2Proof.Machine
open Sys2Proof

/-- What a step that ended with a label did to Sensor State: the normal-mode writes, the writes of a successful ack, or
nothing (R32, R144, R163, R166, R168, R261). -/
inductive SensorEffect (s t : State) : Label → Prop where
  | telemetry (hv : t.tel.valid = true) (hts : t.tel.ts = s.now) (hc : t.conn = ⟨s.now, true⟩) (hg : t.gates = s.gates)
      (hf : t.fw = s.fw) : SensorEffect s t .dataOk
  | ack (c : Byte) (hc : t.conn = ⟨s.now, true⟩) (ht : t.tel = s.tel)
      (hg : t.gates = s.gates ∨ c = 0x61 ∧ t.gates.valid = true)
      (hf : t.fw = s.fw ∨ c = 0xA0 ∧ t.fw.valid = true) : SensorEffect s t (.ackOk c)
  | none (r : Label) (hr : r.frameOk = false) (h : SameSensor s t) : SensorEffect s t r

/-- What a part of a tick leaves alone: the parameters, the clock sample, the inputs, `TX` and the transaction registers. -/
structure PartFrame (s t : State) : Prop where
  tick : SameTick s t
  tx : t.tx = s.tx
  txn : t.txn = s.txn

/-- All that the end of a complete frame does (R118). -/
structure FrameEnd (s t : State) (r : Label) : Prop where
  part : PartFrame s t
  rx : t.rx = s.rx
  framing : t.framing = { s.framing with sync := .idle, bufLen := 0 }
  out : t.out = { s.out with evValid := true, evLabel := r.code, evInfo := r.info }
  sensor : SensorEffect s t r
  parser : r.code.toNat ∈ [5, 6, 7, 8, 9, 10, 11, 12]

theorem endFrame_same (r : Label) (s : State) (hr : r.frameOk = false) (hp : r.code.toNat ∈ [5, 6, 7, 8, 9, 10, 11, 12]) :
    FrameEnd s (endFrame r s).1 (endFrame r s).2 :=
  ⟨⟨⟨rfl, rfl, rfl, rfl⟩, rfl, rfl⟩, rfl, rfl, rfl, .none r hr ⟨rfl, rfl, rfl, rfl⟩, hp⟩

theorem runData_end (f : DataFrame) (s : State) : FrameEnd s (runData f s).1 (runData f s).2 := by
  cases f with
  | eng rest => exact endFrame_same _ s rfl (by simp [Label.code])
  | unknown p => exact endFrame_same _ s rfl (by simp [Label.code])
  | normal =>
    exact ⟨⟨⟨rfl, rfl, rfl, rfl⟩, rfl, rfl⟩, rfl, rfl, rfl, .telemetry rfl rfl rfl rfl rfl,
      by simp [runData, dataNormal, endFrame, endStep, Label.code]⟩

theorem parseData_end (f : List Byte) (s : State) : FrameEnd s (parseData f s).1 (parseData f s).2 := by
  unfold parseData
  split
  · exact runData_end _ s
  · exact endFrame_same _ s rfl (by simp [Label.code])

/-- The end of an ack of a recognised shape, for own writes that write only one group of Configuration State. -/
theorem ackOfShape_end (c : Byte) (st : BitVec 16) (own : State → State) (s : State)
    (ho : own (stampConn s) = { stampConn s with gates := (own (stampConn s)).gates, fw := (own (stampConn s)).fw })
    (hg : (own (stampConn s)).gates = s.gates ∨ c = 0x61 ∧ (own (stampConn s)).gates.valid = true)
    (hf : (own (stampConn s)).fw = s.fw ∨ c = 0xA0 ∧ (own (stampConn s)).fw.valid = true) :
    FrameEnd s (ackOfShape c st own s).1 (ackOfShape c st own s).2 := by
  unfold ackOfShape
  split
  · rw [ho]
    exact ⟨⟨⟨rfl, rfl, rfl, rfl⟩, rfl, rfl⟩, rfl, rfl, rfl, .ack c rfl rfl hg hf, by simp [endFrame, endStep, Label.code]⟩
  · exact endFrame_same _ s rfl (by simp [Label.code])

theorem runAck_end (f : AckFrame) (s : State) : FrameEnd s (runAck f s).1 (runAck f s).2 := by
  cases f with
  | unknown p => exact endFrame_same _ s rfl (by simp [Label.code])
  | queryCfg h st r => exact ackOfShape_end _ _ _ s rfl (.inr ⟨rfl, rfl⟩) (.inl rfl)
  | fwVersion h st r => exact ackOfShape_end _ _ _ s rfl (.inl rfl) (.inr ⟨rfl, rfl⟩)
  | _ => exact ackOfShape_end _ _ _ s rfl (.inl rfl) (.inl rfl)

theorem parseCmd_end (f : List Byte) (s : State) : FrameEnd s (parseCmd f s).1 (parseCmd f s).2 := by
  unfold parseCmd
  split
  · exact runAck_end _ s
  · exact endFrame_same _ s rfl (by simp [Label.code])

/-- A dispatch answers the end of a frame. -/
theorem dispatchFrame_end (s t : State) (r : Label) (h : dispatchFrame s = .ok (t, r)) : FrameEnd s t r := by
  unfold dispatchFrame at h
  split at h
  · cases h
  · rename_i frame _
    split at h <;> injection h with h
    · have := parseData_end frame s; rw [h] at this; exact this
    · have := parseCmd_end frame s; rw [h] at this; exact this

/-- All that an append can do: store its byte, and then either go on accumulating or end the frame. -/
theorem append_cases (b : Byte) (s t : State) (r : Label) (h : append b s = .ok (t, r)) :
    s.framing.bufLen.toNat < bufCap ∧
    ((t, r) = endStep .accumulating (afterStore b s) ∨ FrameEnd (afterStore b s) t r) := by
  by_cases hl : s.framing.bufLen.toNat < bufCap
  · refine ⟨hl, ?_⟩
    rw [append, storeByte_eq b s hl] at h
    simp only [afterAppend] at h
    split at h
    · injection h with h; exact .inl h.symm
    · split at h
      · cases h
      · exact .inr (dispatchFrame_end _ _ _ h)
      · injection h with h; exact .inl h.symm
  · simp [append, storeByte, bufWrite, hl] at h

/-- What every step that consumed a byte did, whatever its case. -/
structure ByteEnd (s t : State) (r : Label) : Prop where
  part : PartFrame s t
  rx : t.rx = s.rx.tail
  out : t.out = { s.out with rxReady := true, evValid := true, evLabel := r.code, evInfo := r.info }
  sensor : SensorEffect s t r
  label : r ≠ .noByte
  reset : 4 ≤ r.code.toNat → t.framing.sync = .idle ∧ t.framing.bufLen = 0

theorem frameEnd_byteEnd (b : Byte) (s t : State) (r : Label) (h : FrameEnd (afterStore b s) t r) : ByteEnd s t r := by
  obtain ⟨⟨⟨p1, p2, p3, p4⟩, p5, p6⟩, h2, hfr, h4, h5, hp⟩ := h
  refine ⟨⟨⟨p1, p2, p3, p4⟩, p5, p6⟩, h2, h4, ?_, ?_, fun _ => by simp [hfr]⟩
  rotate_left
  · rintro rfl; simp [Label.code] at hp
  cases h5 with
  | telemetry hv hts hc hg hf => exact .telemetry hv hts hc hg hf
  | ack c hc ht hg hf => exact .ack c hc ht hg hf
  | none r hr h => exact .none r hr h

/-- All that the case of a consumed byte can do. -/
theorem runByte_end (op : ByteOp) (s t : State) (r : Label) (h : runByte op s = .ok (t, r)) : ByteEnd s t r := by
  cases op with
  | append b =>
    rcases (append_cases b s t r h).2 with h | h
    · cases h
      exact ⟨⟨⟨rfl, rfl, rfl, rfl⟩, rfl, rfl⟩, rfl, rfl, .none _ rfl ⟨rfl, rfl, rfl, rfl⟩, by simp, by simp [Label.code]⟩
    · exact frameEnd_byteEnd b s t r h
  | _ =>
    cases h
    exact ⟨⟨⟨rfl, rfl, rfl, rfl⟩, rfl, rfl⟩, rfl, rfl, .none _ rfl ⟨rfl, rfl, rfl, rfl⟩, by simp,
      fun h => by first | exact ⟨rfl, rfl⟩ | simp [Label.code] at h⟩

/-- All that a synchronizer step can do (R110, R119). -/
theorem syncStep_cases (s t : State) (r : Label) (h : syncStep s = .ok (t, r)) :
    (s.rx = [] ∧ t = s ∧ r = .noByte) ∨
    (∃ b rest, s.rx = b :: rest ∧ runByte (decodeByte s.framing.sync s.framing.bufLen b) s = .ok (t, r) ∧ ByteEnd s t r) := by
  unfold syncStep at h
  split at h
  · cases h; exact .inl ⟨by assumption, rfl, rfl⟩
  · exact .inr ⟨_, _, by assumption, h, runByte_end _ _ _ _ h⟩

end Sys2Proof.Machine
end

