-- ==== Sys2Proof/Laws/Step.lean ====
section
/-! SUPPORT. Everything a tick can do, said once: one case for each way an operation ends, from which the statements about
every tick follow. -/
namespace Sys2Proof.Machine
open Sys2Proof

/-- How a STAGE_ADVANCE ends: a command goes out or the request ends with its response (R211 to R213). -/
theorem advance_cases (s : State) :
    (s.txn.stage = .enter ∧ s.txn.state = .ackedSuccess ∧
      advance s = send .target s.txn.tgtCode (targetArgs s.txn) { s with txn := { s.txn with resEnter := .success } }) ∨
    (s.txn.stage = .enter ∧ s.txn.state ≠ .ackedSuccess ∧
      advance s = clearTxn (respond false (stageOutcome s.txn.state) .none .none s)) ∨
    (s.txn.stage = .target ∧
      advance s = send .leave 0xFE s.cfg.leaveArgs
        { s with txn := { s.txn with resTarget := stageOutcome s.txn.state } }) ∨
    (s.txn.stage = .leave ∧
      advance s = clearTxn (respond (decide (s.txn.resTarget = .success)) s.txn.resEnter s.txn.resTarget
        (stageOutcome s.txn.state) s)) := by
  cases hg : s.txn.stage with
  | enter =>
    cases hs : s.txn.state <;>
      simp [advance, hg, hs, stageOutcome, recordOutcome, sendTarget, endRequest, targetArgs, clearTxn, respond]
  | target => simp [advance, hg, recordOutcome, sendLeave, sendCmd, stageOf, Cmd.code]
  | leave => simp [advance, hg, recordOutcome, endRequest, clearTxn, respond]

/-- Everything a tick can do. -/
inductive TickEffect (s : State) : State → Prop where
  | reset (h : s.input.rst = true) : TickEffect s { resetRegs s.sample with out := Outputs.quiet }
  | accept (hr : s.input.rst = false) (hi : s.txn.state = .idle) (hv : s.input.reqValid = true)
      (hl : legalRequest s.cfg.argsMax s.input.reqCode s.input.reqNargs = true) :
      TickEffect s (acceptRequest s.input.reqCode s.input.reqNargs s.input.reqArgs s.sample)
  | poll (hr : s.input.rst = false) (hi : s.txn.state = .idle)
      (hn : (s.input.reqValid && legalRequest s.cfg.argsMax s.input.reqCode s.input.reqNargs) = false) (hp : s.input.poll = true)
      (t : State) (r : Label) (h : syncStep s.sample = .ok (t, r)) : TickEffect s (setFrameOk r t)
  | nop (hr : s.input.rst = false) (hi : s.txn.state = .idle)
      (hn : (s.input.reqValid && legalRequest s.cfg.argsMax s.input.reqCode s.input.reqNargs) = false) (hp : s.input.poll = false) :
      TickEffect s s.sample
  | timeout (hr : s.input.rst = false) (hi : s.txn.state = .sent) (hd : deadlinePassed s.sample = true) :
      TickEffect s (raiseTimeout s.sample)
  | wait (hr : s.input.rst = false) (hi : s.txn.state = .sent) (hd : deadlinePassed s.sample = false)
      (t : State) (r : Label) (h : syncStep s.sample = .ok (t, r)) : TickEffect s (observe r t)
  | advance (hr : s.input.rst = false) (hi : s.txn.state ≠ .idle) (hs : s.txn.state ≠ .sent) :
      TickEffect s (advance s.sample)

theorem execPoll_next (s t : State) (h : execPoll s = .next t) :
    ∃ u r, syncStep s.sample = .ok (u, r) ∧ t = setFrameOk r u := by
  unfold execPoll poll at h
  cases hs : syncStep s.sample with
  | error f => rw [hs] at h; cases h
  | ok p => obtain ⟨u, r⟩ := p; rw [hs] at h; cases h; exact ⟨u, r, rfl, rfl⟩

theorem execWaitTick_next (s t : State) (h : execWaitTick s = .next t) :
    (deadlinePassed s.sample = true ∧ t = raiseTimeout s.sample) ∨
    (deadlinePassed s.sample = false ∧ ∃ u r, syncStep s.sample = .ok (u, r) ∧ t = observe r u) := by
  unfold execWaitTick waitTick at h
  cases hd : deadlinePassed s.sample with
  | true => simp [hd] at h; exact .inl ⟨rfl, h.symm⟩
  | false =>
    simp only [hd] at h
    cases hs : syncStep s.sample with
    | error f => rw [hs] at h; cases h
    | ok p => obtain ⟨u, r⟩ := p; rw [hs] at h; cases h; exact .inr ⟨rfl, u, r, rfl, rfl⟩

/-- The inversion of a tick (R240). -/
theorem step_cases (s t : State) (h : step s = .next t) : TickEffect s t := by
  unfold step fetchOp decodeTick at h
  split at h
  · rename_i hr; cases h; exact .reset hr
  · rename_i hr
    have hr : s.input.rst = false := by simpa using hr
    split at h
    · rename_i hi
      split at h
      · rename_i hv
        cases h
        simp only [Bool.and_eq_true] at hv
        exact .accept hr hi hv.1 hv.2
      · rename_i hv
        have hv := Bool.eq_false_iff.mpr hv
        split at h
        · rename_i hp
          obtain ⟨u, r, hs, rfl⟩ := execPoll_next s t h
          exact .poll hr hi hv hp u r hs
        · rename_i hp
          cases h
          exact .nop hr hi hv (by simpa using hp)
    · rename_i hi
      rcases execWaitTick_next s t h with ⟨hd, rfl⟩ | ⟨hd, u, r, hs, rfl⟩
      · exact .timeout hr hi hd
      · exact .wait hr hi hd u r hs
    all_goals (rename_i hi; cases h; exact .advance hr (by simp [hi]) (by simp [hi]))

end Sys2Proof.Machine
end

