-- ==== Sys2Proof/Tests/Slice0.lean ====
section
/-! SUPPORT. Tests: terms the well-formedness check refuses, words written out from 30_encoding.md, one step of each
instruction on the examples of the rules and of 95_test_vectors.md, and a witness for the hypotheses of each statement. -/
namespace Sys2Proof.Tests
open Sys2Proof Sys2Proof.Machine

/-! ## Helpers -/

/-- One field of a next state. -/
def field {α : Type} (f : State → α) : Host.Outcome State Fault Refusal → Option α
  | .next s => some (f s)
  | .fault _ => none
  | .refused _ => none

/-- After reset, with the clock sample of a tick. -/
def at500 : State := { State.reset with now := 500 }

/-- A frame in progress. -/
def accum (cls : FrameClass) (bytes : List Byte) : State :=
  { State.reset with
    framing := { sync := .accum, buf := cellsFrom 0 bytes, bufLen := BitVec.ofNat 6 bytes.length, bufClass := cls } }

/-- A tick's inputs with `poll`. -/
def polling (now : Nat) : TickInput := { quietInput now with poll := true }

/-- The coming tick is a POLL at 500 that consumes the last byte of a frame. -/
def completing (cls : FrameClass) (f : List Byte) : State :=
  { accum cls f.dropLast with rx := [f.getLastD 0], inputs := [polling 500] }

/-- A wait in a stage for a code since 1000, with the coming tick's clock and the unread bytes. -/
def waiting (st : Stage) (code : Byte) (now : Nat) (base : State) : State :=
  { base with
    txn := { base.txn with state := .sent, stage := st, awaitCode := code, tSend := 1000, tgtCode := 0x61
                           resEnter := if st = .enter then .none else .success }
    inputs := [quietInput now] }

/-- A stage that ended in a state. -/
def ended (st : Stage) (how : TxnState) (target : StageOutcome) : State :=
  { State.reset with
    txn := { Transaction.cleared with
      state := how, stage := st, tgtCode := 0x61, tgtNargs := 1, tgtArgs := vecOf argSlots [0x07]
      awaitCode := if st = .enter then 0xFF else if st = .target then 0x61 else 0xFE
      resEnter := if st = .enter then .none else .success, resTarget := target }
    inputs := [quietInput 2000] }

/-- A tick's inputs with a request. -/
def requesting (code : Byte) (nargs : BitVec 5) : TickInput :=
  { quietInput 1000 with reqValid := true, reqCode := code, reqNargs := nargs }

def ok23 : List Byte := [0xF4, 0xF3, 0xF2, 0xF1, 0x0D, 0x00, 0x02, 0xAA, 0x03, 0x64, 0x00, 0x32, 0x14, 0x00, 0x19, 0x19, 0x00,
  0x55, 0x00, 0xF8, 0xF7, 0xF6, 0xF5]
def entok : List Byte := [0xFD, 0xFC, 0xFB, 0xFA, 0x08, 0x00, 0xFF, 0x00, 0x00, 0x00, 0x01, 0x00, 0x40, 0x00, 0x04, 0x03, 0x02,
  0x01]
def ack4 (c s0 s1 : Byte) : List Byte := [0xFD, 0xFC, 0xFB, 0xFA, 0x04, 0x00, c, 0x00, s0, s1, 0x04, 0x03, 0x02, 0x01]
def cmd2 (c : Byte) : List Byte := [0xFD, 0xFC, 0xFB, 0xFA, 0x02, 0x00, c, 0x00, 0x04, 0x03, 0x02, 0x01]
def qcfgResult : List Byte := [0xAA, 0x08, 0x08, 0x08, 0x0A, 0x14, 0x1E, 0x28, 0x32, 0x3C, 0x46, 0x50, 0x5A, 0x0F, 0x19, 0x23,
  0x2D, 0x37, 0x41, 0x4B, 0x55, 0x5F, 0x05, 0x00]
def qcfg : List Byte := [0xFD, 0xFC, 0xFB, 0xFA, 0x1C, 0x00, 0x61, 0x00, 0x00, 0x00] ++ qcfgResult ++ [0x04, 0x03, 0x02, 0x01]
def fwv : List Byte := [0xFD, 0xFC, 0xFB, 0xFA, 0x0C, 0x00, 0xA0, 0x00, 0x00, 0x00, 0x00, 0x01, 0x07, 0x01, 0x16, 0x15, 0x09,
  0x22, 0x04, 0x03, 0x02, 0x01]
def eng13 : List Byte := [0xF4, 0xF3, 0xF2, 0xF1, 0x03, 0x00, 0x01, 0xAA, 0x02, 0xF8, 0xF7, 0xF6, 0xF5]
/-- An instance with an 8-bit clock and at most two arguments. -/
def narrow : Config :=
  { Config.default with
    clockW := 8, argsMax := ⟨2, by decide⟩, ackTimeoutMs_lt := by decide, enterArgs_le := by decide, leaveArgs_le := by decide }

def gateArgs : List Byte := [0, 0, 8, 0, 0, 0, 1, 0, 8, 0, 0, 0, 2, 0, 5, 0, 0, 0]
def sensArgs : List Byte := [0, 0, 3, 0, 0, 0, 1, 0, 0x28, 0, 0, 0, 2, 0, 0x28, 0, 0, 0]

/-! ## Ill-formed terms -/

theorem test_wf_refuses_start_markers : Instr.wf (.idleSkip 0xF4) = false ∧ Instr.wf (.idleSkip 0xFD) = false := by decide
theorem test_wf_refuses_long_eng : Instr.wf (.dataEng (List.replicate 29 0)) = false := by decide
theorem test_wf_refuses_known_data_as_unknown : Instr.wf (.dataUnknown [0x01, 0xAA]) = false ∧
    Instr.wf (.dataUnknown [0x02, 0xAA, 0, 0, 0, 0, 0, 0, 0, 0, 0, 0x55, 0x00]) = false := by decide
theorem test_wf_refuses_long_unknown_data : Instr.wf (.dataUnknown (List.replicate 31 0)) = false := by decide
theorem test_wf_refuses_known_ack_as_unknown : Instr.wf (.ackUnknown [0xFE, 0, 0, 0]) = false := by decide
theorem test_wf_refuses_long_unknown_ack : Instr.wf (.ackUnknown (List.replicate 31 0)) = false := by decide
theorem test_wf_refuses_long_args : ∀ k ∈ [Cmd.enterCfg, .leaveCfg, .setMaxGate, .queryCfg, .engStart, .engStop, .setSens,
    .fwVersion, .factoryReset, .restart], Instr.wf (k.toInstr (List.replicate 19 0)) = false := by decide
theorem test_wf_refuses_illegal_request : Instr.wf (.reqAccept 0xFF 0 (vecOf argSlots [])) = false ∧
    Instr.wf (.reqAccept 0x60 19 (vecOf argSlots [])) = false := by decide

/-! ## Decoding: words written out from 30_encoding.md and the examples of the rules -/

theorem test_decode_idleSkip : decode (.byte .idle 0 0xF3) = .ok (.idleSkip 0xF3) := by decide
theorem test_decode_sofData : decode (.byte .idle 0 0xF4) = .ok .sofData := by decide
theorem test_decode_sofCmd : decode (.byte .idle 0 0xFD) = .ok .sofCmd := by decide
theorem test_decode_append : decode (.byte .accum 39 0xFD) = .ok (.append 0xFD) := by decide
theorem test_decode_overrun : decode (.byte .accum 40 0xF4) = .ok (.overrun 0xF4) := by decide
theorem test_decode_dataEng : decode (.data eng13) = .ok (.dataEng [0x02]) := by decide
theorem test_decode_dataNormal : decode (.data ok23) = .ok (.dataNormal 0x03 100 50 20 25 25 0) := by decide
theorem test_decode_dataUnknown :
    decode (.data [0xF4, 0xF3, 0xF2, 0xF1, 0x0C, 0x00, 0x02, 0xAA, 0x03, 0x64, 0x00, 0x32, 0x64, 0x00, 0x14, 0x19, 0x55, 0x00,
      0xF8, 0xF7, 0xF6, 0xF5]) =
    .ok (.dataUnknown [0x02, 0xAA, 0x03, 0x64, 0x00, 0x32, 0x64, 0x00, 0x14, 0x19, 0x55, 0x00]) := by decide
theorem test_decode_ackEnterCfg : decode (.ack entok) = .ok (.ackEnterCfg 0 0 (vecOf 4 [0x01, 0x00, 0x40, 0x00])) := by decide
theorem test_decode_ackLeaveCfg : decode (.ack (ack4 0xFE 0 0)) = .ok (.ackLeaveCfg 0 0) := by decide
theorem test_decode_ackSetMaxGate : decode (.ack (ack4 0x60 1 2)) = .ok (.ackSetMaxGate 0 0x0201) := by decide
theorem test_decode_ackQueryCfg : decode (.ack qcfg) = .ok (.ackQueryCfg 0 0 (vecOf 24 qcfgResult)) := by decide
theorem test_decode_ackSetSens : decode (.ack (ack4 0x64 0 0)) = .ok (.ackSetSens 0 0) := by decide
theorem test_decode_ackFwVersion :
    decode (.ack fwv) = .ok (.ackFwVersion 0 0 (vecOf 8 [0x00, 0x01, 0x07, 0x01, 0x16, 0x15, 0x09, 0x22])) := by decide
theorem test_decode_ackFactoryReset : decode (.ack (ack4 0xA2 0 0)) = .ok (.ackFactoryReset 0 0) := by decide
theorem test_decode_ackRestart : decode (.ack (ack4 0xA3 0 0)) = .ok (.ackRestart 0 0) := by decide
theorem test_decode_ackEngStart : decode (.ack (ack4 0x62 0 0)) = .ok (.ackEngStart 0 0) := by decide
theorem test_decode_ackEngStop : decode (.ack (ack4 0x63 0 0)) = .ok (.ackEngStop 0 0) := by decide
theorem test_decode_ackUnknown : decode (.ack (ack4 0xFF 0 0)) = .ok (.ackUnknown [0xFF, 0, 0, 0]) ∧
    decode (.ack (cmd2 0x61)) = .ok (.ackUnknown [0x61, 0]) := by decide
theorem test_decode_cmdEnterCfg :
    decode (.cmd [0xFD, 0xFC, 0xFB, 0xFA, 0x04, 0x00, 0xFF, 0x00, 0x01, 0x00, 0x04, 0x03, 0x02, 0x01]) =
    .ok (.cmdEnterCfg [0x01, 0x00]) := by decide
theorem test_decode_cmdSetMaxGate :
    decode (.cmd [0xFD, 0xFC, 0xFB, 0xFA, 0x14, 0x00, 0x60, 0x00, 0x00, 0x00, 0x08, 0x00, 0x00, 0x00, 0x01, 0x00, 0x08, 0x00,
      0x00, 0x00, 0x02, 0x00, 0x05, 0x00, 0x00, 0x00, 0x04, 0x03, 0x02, 0x01]) = .ok (.cmdSetMaxGate gateArgs) := by decide
theorem test_decode_cmdSetSens :
    decode (.cmd [0xFD, 0xFC, 0xFB, 0xFA, 0x14, 0x00, 0x64, 0x00, 0x00, 0x00, 0x03, 0x00, 0x00, 0x00, 0x01, 0x00, 0x28, 0x00,
      0x00, 0x00, 0x02, 0x00, 0x28, 0x00, 0x00, 0x00, 0x04, 0x03, 0x02, 0x01]) = .ok (.cmdSetSens sensArgs) := by decide
theorem test_decode_cmds_without_args : ∀ p ∈ [((0xFE : Byte), Instr.cmdLeaveCfg []), (0x61, .cmdQueryCfg []),
    (0x62, .cmdEngStart []), (0x63, .cmdEngStop []), (0xA0, .cmdFwVersion []), (0xA2, .cmdFactoryReset []),
    (0xA3, .cmdRestart [])], decode (.cmd (cmd2 p.1)) = .ok p.2 := by decide
theorem test_decode_ticks : decode (.tick .all .sent { polling 0 with rst := true }) = .ok .reset ∧
    decode (.tick .all .idle { requesting 0x62 0 with poll := true }) = .ok (.reqAccept 0x62 0 (vecOf argSlots [])) ∧
    decode (.tick .all .idle { requesting 0xFF 2 with poll := true }) = .ok .poll ∧
    decode (.tick .all .idle (requesting 0x60 19)) = .ok .nop ∧
    decode (.tick .all .sent { requesting 0xA0 0 with poll := true }) = .ok .waitTick ∧
    decode (.tick .all .timedOut (quietInput 0)) = .ok .stageAdvance := by decide
theorem test_decode_rejects : decode (.data (ok23.set 21 0)) = .error .badMarkers ∧
    decode (.data (ok23.set 4 0x0C)) = .error .lengthMismatch ∧
    decode (.ack [0xFD, 0xFC, 0xFB, 0xFA, 0x04, 0x03, 0x02, 0x01]) = .error .lengthMismatch ∧
    decode (.cmd (cmd2 0x65)) = .error .notACommand := by decide
theorem test_decode_wrapped_length : decode (.data [0xF4, 0xF3, 0xF2, 0xF1, 0xF8, 0xF7, 0xF6, 0xF5]) = .error .lengthMismatch := by
  decide

/-! ## The rows inside a tick -/

theorem test_idleSkip : field (fun t => (t.framing, t.out.evLabel)) (exec (.idleSkip 0xF3) State.reset) =
    some (Framing.reset, 1) := by decide
theorem test_sofData : field State.framing (exec .sofData State.reset) = some ⟨.accum, [(0, 0xF4)], 1, .data⟩ := by decide
theorem test_sofCmd : field State.framing (exec .sofCmd State.reset) = some ⟨.accum, [(0, 0xFD)], 1, .cmd⟩ := by decide
theorem test_append_accumulates : field State.framing (exec (.append 0xF1) (accum .data [0xF4, 0xF3, 0xF2])) =
    some ⟨.accum, [(0, 0xF4), (1, 0xF3), (2, 0xF2), (3, 0xF1)], 4, .data⟩ := by decide
set_option maxRecDepth 4000 in
theorem test_append_completes : field (fun t => (t.framing.sync, t.framing.bufLen, t.out.evLabel, t.tel.movDist))
    (exec (.append 0xF5) (accum .data ok23.dropLast)) = some (.idle, 0, 5, 100) := by rfl
theorem test_overrun : field (fun t => (t.framing.sync, t.framing.bufLen, t.out.evLabel))
    (exec (.overrun 0xF4) (accum .data (List.replicate 40 0))) = some (.idle, 0, 4) := by rfl
theorem test_dataEng : field (fun t => (t.tel, t.conn, t.out.evLabel, t.out.evInfo)) (exec (.dataEng [0x02]) at500) =
    some (Telemetry.reset, Connectivity.reset, 6, 0x02) := by decide
theorem test_dataEng_without_target : field (fun t => t.out.evInfo) (exec (.dataEng []) at500) = some 0xF8 := by decide
theorem test_dataNormal : field (fun t => (t.tel, t.conn)) (exec (.dataNormal 0x03 100 50 20 25 25 0) at500) =
    some (⟨0x03, 100, 50, 20, 25, 25, 500, true⟩, ⟨500, true⟩) := by decide
theorem test_dataUnknown : field (fun t => (t.tel, t.conn, t.out.evLabel)) (exec (.dataUnknown []) at500) =
    some (Telemetry.reset, Connectivity.reset, 8) := by decide
theorem test_plain_acks : ∀ p ∈ [(Instr.ackEnterCfg 0 0 (vecOf 4 []), (0xFF : Byte)), (.ackLeaveCfg 0 0, 0xFE),
    (.ackSetMaxGate 0 0, 0x60), (.ackSetSens 0 0, 0x64), (.ackFactoryReset 0 0, 0xA2), (.ackRestart 0 0, 0xA3),
    (.ackEngStart 1 0, 0x62), (.ackEngStop 0 0, 0x63)],
    field (fun t => (t.conn, t.out.evLabel, t.out.evInfo)) (exec p.1 at500) = some (⟨500, true⟩, 9, p.2) := by decide
theorem test_refused_acks : ∀ p ∈ [(Instr.ackEnterCfg 0 1 (vecOf 4 []), (0xFF : Byte)), (.ackLeaveCfg 0 0x100, 0xFE),
    (.ackSetMaxGate 0 1, 0x60), (.ackQueryCfg 0 1 (vecOf 24 qcfgResult), 0x61), (.ackSetSens 0 1, 0x64),
    (.ackFwVersion 0 0x8000 (vecOf 8 []), 0xA0), (.ackFactoryReset 0 1, 0xA2), (.ackRestart 0 1, 0xA3),
    (.ackEngStart 0 1, 0x62), (.ackEngStop 0 1, 0x63)],
    field (fun t => (t.conn, t.gates.valid, t.fw.valid, t.out.evLabel, t.out.evInfo)) (exec p.1 at500) =
      some (Connectivity.reset, false, false, 10, p.2) := by decide
theorem test_ackQueryCfg : field State.gates (exec (.ackQueryCfg 0 0 (vecOf 24 qcfgResult)) at500) =
    some ⟨8, 8, 8, 5, vecOf 9 [10, 20, 30, 40, 50, 60, 70, 80, 90], vecOf 9 [15, 25, 35, 45, 55, 65, 75, 85, 95], true⟩ := by
  decide
theorem test_ackQueryCfg_base_10 :
    field State.gates (exec (.ackQueryCfg 0 0 (vecOf 24 qcfgResult))
      { at500 with cfg := { Config.default with qcfgBase := ⟨10, by decide⟩ } }) =
    some ⟨170, 8, 8, 1375, vecOf 9 [8, 10, 20, 30, 40, 50, 60, 70, 80], vecOf 9 [90, 15, 25, 35, 45, 55, 65, 75, 85], true⟩ := by
  decide
theorem test_ackFwVersion :
    field State.fw (exec (.ackFwVersion 0 0 (vecOf 8 [0x00, 0x01, 0x07, 0x01, 0x16, 0x15, 0x09, 0x22])) at500) =
    some ⟨1, 7, 0x22091516, true⟩ := by decide
theorem test_ackUnknown : field (fun t => (t.conn, t.out.evLabel, t.out.evInfo)) (exec (.ackUnknown [0x65, 0, 1, 0]) at500) =
    some (Connectivity.reset, 12, 0x65) := by decide
theorem test_cmdEnterCfg : field State.tx (exec (.cmdEnterCfg [0x01, 0x00]) at500) =
    some [0xFD, 0xFC, 0xFB, 0xFA, 0x04, 0x00, 0xFF, 0x00, 0x01, 0x00, 0x04, 0x03, 0x02, 0x01] := by decide
theorem test_cmdSetMaxGate : field (fun t => (t.tx.length, t.out.txLen, t.txn.awaitCode)) (exec (.cmdSetMaxGate gateArgs) at500) =
    some (30, 30, 0x60) := by decide
theorem test_cmdSetSens : field State.tx (exec (.cmdSetSens sensArgs) at500) =
    some [0xFD, 0xFC, 0xFB, 0xFA, 0x14, 0x00, 0x64, 0x00, 0x00, 0x00, 0x03, 0x00, 0x00, 0x00, 0x01, 0x00, 0x28, 0x00, 0x00, 0x00,
      0x02, 0x00, 0x28, 0x00, 0x00, 0x00, 0x04, 0x03, 0x02, 0x01] := by decide
theorem test_cmds_without_args : ∀ p ∈ [(Instr.cmdLeaveCfg [], (0xFE : Byte), Stage.leave), (.cmdQueryCfg [], 0x61, .target),
    (.cmdEngStart [], 0x62, .target), (.cmdEngStop [], 0x63, .target), (.cmdFwVersion [], 0xA0, .target),
    (.cmdFactoryReset [], 0xA2, .target), (.cmdRestart [], 0xA3, .target)],
    field (fun t => (t.tx, t.txn.awaitCode, t.txn.stage, t.txn.tSend, t.txn.state)) (exec p.1 at500) =
      some (cmd2 p.2.1, p.2.1, p.2.2, 500, .sent) := by decide

/-! ## Ticks -/

theorem test_reset_ends_request : field (fun t => (t.txn, t.framing.sync, t.out.rspValid))
    (step { waiting .enter 0xFF 1001 (accum .cmd [0xFD]) with inputs := [{ quietInput 1001 with rst := true }] }) =
    some (Transaction.cleared, .idle, false) := by decide
theorem test_reqAccept : field (fun t => (t.tx, t.txn.tSend, t.txn.awaitCode, t.rx))
    (step { State.reset with inputs := [{ requesting 0x61 0 with poll := true }], rx := [0xF4] }) =
    some ([0xFD, 0xFC, 0xFB, 0xFA, 0x04, 0x00, 0xFF, 0x00, 0x01, 0x00, 0x04, 0x03, 0x02, 0x01], 1000, 0xFF, [0xF4]) := by decide
theorem test_poll_starts : field (fun t => (t.framing.sync, t.framing.bufLen, t.out.frameOk, t.out.rxReady))
    (step { State.reset with inputs := [polling 0], rx := [0xF4] }) = some (.accum, 1, false, true) := by decide
set_option maxRecDepth 4000 in
theorem test_poll_frame_ok : field (fun t => (t.out.frameOk, t.tel.ts, t.tel.valid)) (step (completing .data ok23)) =
    some (true, 500, true) := by rfl
theorem test_nop : field (fun t => (t.rx, t.out.evValid, t.out.reqReady)) (step { State.reset with
    inputs := [quietInput 0], rx := [0xF4] }) = some ([0xF4], false, true) := by decide
theorem test_wait_before_deadline : field (fun t => t.txn.state) (step (waiting .enter 0xFF 1099 State.reset)) = some .sent := by
  decide
theorem test_wait_at_deadline : field (fun t => (t.txn.state, t.out.evLabel, t.out.evInfo, t.rx))
    (step (waiting .enter 0xFF 1100 { State.reset with rx := [0x01] })) = some (.timedOut, 13, 0xFF, [0x01]) := by decide
theorem test_stageAdvance_target : field (fun t => (t.tx, t.txn.stage, t.txn.tSend, t.txn.resEnter))
    (step (ended .enter .ackedSuccess .none)) =
    some ([0xFD, 0xFC, 0xFB, 0xFA, 0x03, 0x00, 0x61, 0x00, 0x07, 0x04, 0x03, 0x02, 0x01], .target, 2000, .success) := by decide
theorem test_stageAdvance_response : field (fun t => (t.out.rspOk, t.out.rspEnter, t.out.rspTarget, t.out.rspLeave))
    (step (ended .leave .timedOut .success)) = some (true, 1, 1, 3) := by decide
theorem test_fetch_words : ∀ w ∈ [(0xF4 : Nat), 0xFD, 0x33, 1, 2, 4, 0],
    some (fetchOp (State.reset.withFetchWord 8 w)) =
      (if w < 16 then decodeTableWord 8 w else some .poll) := by decide
-- R252's own example: window 1000, conn_ts 500.
theorem test_connected : connected { at500 with conn := ⟨500, true⟩ } ⟨1000, by decide⟩ 1499 = true ∧
    connected { at500 with conn := ⟨500, true⟩ } ⟨1000, by decide⟩ 1500 = false ∧
    connected State.reset ⟨1000, by decide⟩ 499 = false := by decide
-- D28: with an 8-bit clock 255 is the largest window, and 256 is refused.
theorem test_staleWindow_range : (staleWindowOf narrow 255).isSome = true ∧ staleWindowOf narrow 256 = none := by decide
theorem test_elapsed_wraps : elapsed Config.default 0x53 0xFFFFFFF0 = 99 ∧ elapsed Config.default 0x54 0xFFFFFFF0 = 100 ∧
    elapsed narrow 3 250 = 9 := by decide
theorem test_clock_width : field (fun t => t.now) (step { State.reset with cfg := narrow, inputs := [quietInput 0x1FF] }) =
    some 0xFF := by decide
theorem test_argsMax_is_a_parameter :
    fetchOp { State.reset with cfg := narrow, inputs := [requesting 0x60 3] } = .nop ∧
    fetchOp { State.reset with cfg := narrow, inputs := [requesting 0x60 2] } = .reqAccept 0x60 2 (vecOf argSlots []) := by decide
theorem test_presence_ignores_other_bits : presence { at500 with tel := { Telemetry.reset with tgtType := 0xFC } } = false := by
  decide

/-! ## Witnesses: a state and operands that meet the hypotheses of each statement, at the bounds of each clause -/

/-- A host's argument bytes, none of them 0. -/
def hostArgs : Vector Byte 18 := vecOf 18 [1, 2, 3, 4, 5, 6, 7, 8, 9, 10, 11, 12, 13, 14, 15, 16, 17, 18]

/-- A 40-byte data frame, the longest. -/
def frame40 : List Byte := frameOf .data (0x01 :: 0xAA :: List.replicate 28 0)

theorem witness_DecodeEncodeRoundTrip : Instr.wf (.dataEng (List.replicate 28 0)) = true ∧
    Instr.wf (.ackUnknown (List.replicate 30 0)) = true ∧ Instr.wf (.dataUnknown []) = true ∧
    Instr.wf (.cmdSetSens (List.replicate 18 0)) = true ∧ Instr.wf (.reqAccept 0xA3 18 hostArgs) = true := by decide
set_option maxRecDepth 8000 in
theorem witness_EncodeDecodeFrames : decode (.data frame40) = .ok (.dataEng (List.replicate 28 0)) ∧
    decode (.ack fwv) = .ok (.ackFwVersion 0 0 (vecOf 8 [0x00, 0x01, 0x07, 0x01, 0x16, 0x15, 0x09, 0x22])) ∧
    decode (.cmd (cmd2 0xFE)) = .ok (.cmdLeaveCfg []) := ⟨by rfl, by decide, by decide⟩
theorem witness_DecodeAnswersWellFormed : decode (.data eng13) = .ok (.dataEng [0x02]) := by decide
theorem witness_FrameRejectedIffLengthDisagrees :
    (8 = ([0xF4, 0xF3, 0xF2, 0xF1, 0xF8, 0xF7, 0xF6, 0xF5] : List Byte).length ∧
      decode (.data [0xF4, 0xF3, 0xF2, 0xF1, 0xF8, 0xF7, 0xF6, 0xF5]) = .error .lengthMismatch) ∧
    (frame40.length = 40 ∧ frame40.take 4 = [0xF4, 0xF3, 0xF2, 0xF1] ∧ frame40.drop 36 = [0xF8, 0xF7, 0xF6, 0xF5]) ∧
    (8 = ([0xFD, 0xFC, 0xFB, 0xFA, 0x04, 0x03, 0x02, 0x01] : List Byte).length ∧
      decode (.ack [0xFD, 0xFC, 0xFB, 0xFA, 0x04, 0x03, 0x02, 0x01]) = .error .lengthMismatch) ∧
    (qcfg.length = 38 ∧ qcfg.take 4 = [0xFD, 0xFC, 0xFB, 0xFA] ∧ qcfg.drop 34 = [0x04, 0x03, 0x02, 0x01]) := by decide
theorem witness_ByteSelectsRow : ((0xF5 : Byte) ≠ 0xF4 ∧ (0xF5 : Byte) ≠ 0xFD) ∧ (40 : BitVec 6).toNat = 40 ∧
    (39 : BitVec 6).toNat ≠ 40 ∧ (41 : BitVec 6).toNat ≠ 40 := by decide

theorem witness_StepRunsSelectedOperation :
    decode (.tick .all TxnState.idle (quietInput 0)) = .ok .nop ∧
    ({ State.reset with inputs := [{ quietInput 0 with rst := true }] } : State).input.rst = true ∧
    (let s : State := { State.reset with inputs := [requesting 0xA3 18] };
      s.input.rst = false ∧ s.txn.state = .idle ∧ s.input.reqValid = true ∧
      s.input.reqCode ∈ [0x60, 0x61, 0x62, 0x63, 0x64, 0xA0, 0xA2, 0xA3] ∧ s.input.reqNargs.toNat = 18) ∧
    (let s : State := { State.reset with inputs := [{ requesting 0x60 19 with poll := true }] };
      s.input.rst = false ∧ s.txn.state = .idle ∧ ¬ s.input.reqNargs.toNat ≤ 18 ∧ s.input.poll = true) ∧
    (let s : State := { State.reset with inputs := [quietInput 0] };
      s.input.rst = false ∧ s.txn.state = .idle ∧ s.input.reqValid = false ∧ s.input.poll = false) ∧
    (let s := waiting .enter 0xFF 1001 State.reset;
      s.input.rst = false ∧ s.txn.state = .sent) ∧
    ∀ st ∈ [TxnState.ackedSuccess, .ackedFailure, .timedOut],
      (ended .target st .none).input.rst = false ∧ (ended .target st .none).txn.state = st := by decide
theorem witness_TickTakesItsInputs : (∃ t, step (completing .data ok23) = .next t) ∧ ClockInv (completing .data ok23) :=
  ⟨⟨_, rfl⟩, by decide⟩
theorem witness_IllegalRequestIsNoRequest : ∀ i ∈ [requesting 0x60 19, requesting 0xFF 0],
    ({ State.reset with inputs := [i] } : State).inputs = i :: [] ∧ i.reqValid = true ∧
    ¬(i.reqCode ∈ [0x60, 0x61, 0x62, 0x63, 0x64, 0xA0, 0xA2, 0xA3] ∧ i.reqNargs.toNat ≤ 18) := by decide
theorem witness_BusyIgnoresPollAndRequest : (waiting .enter 0xFF 1001 State.reset).txn.state ≠ .idle ∧
    (waiting .enter 0xFF 1001 State.reset).inputs = quietInput 1001 :: [] := by decide
theorem witness_RequestReadyOnlyWhenIdle :
    field (fun t => t.out.reqReady) (step { State.reset with inputs := [requesting 0x62 0] }) = some true ∧
    field (fun t => t.out.reqReady) (step (waiting .enter 0xFF 1001 State.reset)) = some false := by decide
set_option maxRecDepth 8000 in
theorem witness_FrameOkOnlyForParsedFrames :
    (∃ t, step (completing .cmd (ack4 0xFE 0 0)) = .next t ∧ t.out.evLabel = 9 ∧ t.out.frameOk = true) ∧
    ∃ t, step (waiting .leave 0xFE 1001 { accum .cmd (ack4 0xFE 0 0).dropLast with rx := [0x01] }) = .next t ∧
      t.out.evLabel = 9 ∧ t.out.frameOk = false := ⟨⟨_, rfl, rfl, rfl⟩, _, rfl, rfl, rfl⟩
theorem witness_AtMostOneByteConsumed :
    field (fun t => (t.out.rxReady, t.rx)) (step { State.reset with
      inputs := [{ polling 0 with arrivals := [0x02] }], rx := [0x01] }) = some (true, [0x02]) ∧
    field (fun t => (t.out.rxReady, t.rx)) (step { State.reset with
      inputs := [{ quietInput 0 with arrivals := [0x02] }], rx := [0x01] }) = some (false, [0x01, 0x02]) := by decide
theorem witness_AtMostOneFrameSent :
    field (fun t => (t.out.txValid, t.out.txLen)) (step (ended .enter .ackedSuccess .none)) = some (true, 13) ∧
    field (fun t => (t.out.txValid, t.out.txLen)) (step (ended .enter .timedOut .none)) = some (false, 0) := by decide

theorem witness_IdleSkipDiscards : State.reset.framing.sync = .idle ∧ (0xF5 : Byte) ≠ 0xF4 ∧ (0xF5 : Byte) ≠ 0xFD := by decide
set_option maxRecDepth 8000 in
theorem witness_AppendAccumulates :
    ((accum .data (ok23.take 6)).framing.sync = .accum ∧ BufferHolds (accum .data (ok23.take 6)) (ok23.take 6) ∧
      (ok23.take 6).length + 1 = 7) ∧
    (BufferHolds (accum .data (List.replicate 39 0xF4)) (List.replicate 39 0xF4) ∧
      hasMarkers .data (List.replicate 39 0xF4 ++ [0xF4]) = false) := by decide
set_option maxRecDepth 8000 in
theorem witness_AppendRunsDecodedFrame :
    (BufferHolds (accum .data ok23.dropLast) ok23.dropLast ∧
      decode (.data (ok23.dropLast ++ [0xF5])) = .ok (.dataNormal 0x03 100 50 20 25 25 0)) ∧
    (BufferHolds (accum .cmd fwv.dropLast) fwv.dropLast ∧
      decode (.ack (fwv.dropLast ++ [0x01])) =
        .ok (.ackFwVersion 0 0 (vecOf 8 [0x00, 0x01, 0x07, 0x01, 0x16, 0x15, 0x09, 0x22]))) := by decide
set_option maxRecDepth 8000 in
theorem witness_AppendRejectsLengthMismatch :
    (let bytes : List Byte := [0xF4, 0xF3, 0xF2, 0xF1, 0xF8, 0xF7, 0xF6];
      BufferHolds (accum .data bytes) bytes ∧ bytes.length = 7 ∧ hasMarkers .data (bytes ++ [0xF5]) = true ∧
      ((bytes ++ [0xF5]).getD 4 0).toNat + 256 * ((bytes ++ [0xF5]).getD 5 0).toNat + 10 ≠ bytes.length + 1) ∧
    (let bytes : List Byte := [0xFD, 0xFC, 0xFB, 0xFA, 0x1F, 0x00] ++ List.replicate 30 0 ++ [0x04, 0x03, 0x02];
      BufferHolds (accum .cmd bytes) bytes ∧ bytes.length = 39 ∧ hasMarkers .cmd (bytes ++ [0x01]) = true ∧
      ((bytes ++ [0x01]).getD 4 0).toNat + 256 * ((bytes ++ [0x01]).getD 5 0).toNat + 10 ≠ bytes.length + 1) := by decide
theorem witness_UnknownDataFrameWritesNothing : ∀ p ∈ [([] : List Byte), List.replicate 30 0x01, [0x02, 0xAA]],
    p.length ≤ 30 ∧ p.take 2 ≠ [0x01, 0xAA] ∧ ¬(p.take 2 = [0x02, 0xAA] ∧ p.length = 13 ∧ p.drop 11 = [0x55, 0x00]) := by decide
theorem witness_QueryConfigAckWritesGates : 1 + 10 = State.reset.cfg.qcfgBase.val ∧
    0 + 10 = ({ Config.default with qcfgBase := ⟨10, by decide⟩ } : Config).qcfgBase.val := by decide
theorem witness_FirmwareAckWritesVersion : 2 + 10 = State.reset.cfg.fwvBase.val ∧
    0 + 10 = ({ Config.default with fwvBase := ⟨10, by decide⟩ } : Config).fwvBase.val := by decide
theorem witness_NonZeroStatusAckWritesNothing : (0x0001 : BitVec 16) ≠ 0 ∧ (0x0100 : BitVec 16) ≠ 0 := by decide
theorem witness_UnknownAckWritesNothing : ∀ p ∈ [([] : List Byte), List.replicate 30 0xFF, [0xFE], [0x61, 0, 0, 0]],
    p.length ≤ 30 ∧ (p.length, (p ++ [0x04, 0x03, 0x02, 0x01]).getD 0 0) ∉
      [(8, (0xFF : Byte)), (4, 0xFE), (4, 0x60), (28, 0x61), (4, 0x64), (12, 0xA0), (4, 0xA2), (4, 0xA3), (4, 0x62), (4, 0x63)] := by
  decide
theorem witness_CommandRowsSendFrames : ([] : List Byte).length ≤ 18 ∧ sensArgs.length = 18 := by decide

theorem witness_NopOnlyTakesInputs : let s : State := { State.reset with inputs := [quietInput 0] };
    s.txn.state = .idle ∧ s.input.rst = false := by decide
set_option maxRecDepth 8000 in
theorem witness_PollRunsByteRow : let s := completing .cmd (ack4 0xFE 0 0);
    FramingInv s ∧ s.sample.rx.head? = some 0x01 ∧
    decode (.byte s.framing.sync s.framing.bufLen 0x01) = .ok (.append 0x01) := by decide
theorem witness_NoByteChangesNothing : let s := waiting .enter 0xFF 1099 (accum .cmd [0xFD]);
    s.rx = [] ∧ s.input.arrivals = [] ∧ elapsed s.cfg s.input.now s.txn.tSend < s.cfg.ackTimeoutMs := by decide
set_option maxRecDepth 8000 in
theorem witness_WaitTickRunsByteRow : let s := waiting .leave 0xFE 1099 { accum .cmd (ack4 0xFE 0 1).dropLast with rx := [0x01] };
    FramingInv s ∧ s.sample.rx.head? = some 0x01 ∧
    decode (.byte s.framing.sync s.framing.bufLen 0x01) = .ok (.append 0x01) ∧
    elapsed s.cfg s.input.now s.txn.tSend + 1 = s.cfg.ackTimeoutMs := by decide
set_option maxRecDepth 8000 in
theorem witness_WaitTickStepsAsPoll : let s := waiting .target 0x61 1099 { accum .data ok23.dropLast with rx := [0xF5] };
    elapsed s.cfg s.input.now s.txn.tSend < s.cfg.ackTimeoutMs ∧
    ∃ t, exec .poll s = .next t ∧ ¬(t.out.evValid = true ∧ t.out.evLabel ∈ [9, 10] ∧ t.out.evInfo = s.txn.awaitCode) :=
  ⟨by decide, _, rfl, by decide⟩
theorem witness_WaitTickTimesOut : let s := waiting .enter 0xFF 1100 { State.reset with rx := [0x01] };
    s.cfg.ackTimeoutMs = elapsed s.cfg s.input.now s.txn.tSend := by decide
set_option maxRecDepth 8000 in
theorem witness_WaitEndsOnlyOnAwaitedAck :
    (∃ t, exec .waitTick (waiting .leave 0xFE 1099 { accum .cmd (ack4 0xFE 0 0).dropLast with rx := [0x01] }) = .next t ∧
      t.txn.state = .ackedSuccess) ∧
    (∃ t, exec .waitTick (waiting .leave 0xFE 1099 { accum .cmd (ack4 0xFE 0 1).dropLast with rx := [0x01] }) = .next t ∧
      t.txn.state = .ackedFailure) ∧
    (∃ t, exec .waitTick (waiting .leave 0xFE 1100 State.reset) = .next t ∧ t.txn.state = .timedOut) ∧
    ∃ t, exec .waitTick (waiting .leave 0xFE 1099 State.reset) = .next t ∧ t.txn.state = .sent :=
  ⟨⟨_, rfl, rfl⟩, ⟨_, rfl, rfl⟩, ⟨_, rfl, rfl⟩, _, rfl, rfl⟩
theorem witness_TimeoutAcrossClockWrap : (0 < 2 ^ State.reset.cfg.clockW ∧ 4294967295 < 2 ^ State.reset.cfg.clockW) ∧
    255 < 2 ^ narrow.clockW := by decide
theorem witness_StageAdvanceRunsCommandRow :
    (let s := ended .enter .ackedSuccess .none;
      s.txn.state = .ackedSuccess ∧ s.txn.stage = .enter ∧ legalRequest s.cfg.argsMax s.txn.tgtCode s.txn.tgtNargs = true) ∧
    ∀ p ∈ [TxnState.ackedSuccess, .ackedFailure, .timedOut],
      (ended .target p .none).txn.state = p ∧ (ended .target p .none).txn.stage = .target := by decide
theorem witness_FailedEnterAbortsRequest : ∀ p ∈ [TxnState.timedOut, .ackedFailure],
    (ended .enter p .none).txn.state = p ∧ (ended .enter p .none).txn.stage = .enter := by decide
theorem witness_TargetEndSendsLeave : ∀ p ∈ [TxnState.ackedSuccess, .ackedFailure, .timedOut],
    (ended .target p .none).txn.state = p ∧ (ended .target p .none).txn.stage = .target := by decide
theorem witness_LeaveEndRespondsTargetResult : ∀ p ∈ [TxnState.ackedSuccess, .ackedFailure, .timedOut],
    ∀ r ∈ [StageOutcome.success, .failure, .timeout],
      (ended .leave p r).txn.state = p ∧ (ended .leave p r).txn.stage = .leave := by decide

set_option maxRecDepth 8000 in
theorem witness_TelemetryWrittenOnlyByNormalFrame :
    ∃ t, step (completing .data ok23) = .next t ∧ t.tel ≠ (completing .data ok23).tel := ⟨_, rfl, by decide⟩
set_option maxRecDepth 8000 in
theorem witness_ConfigWrittenOnlyByItsAcks :
    (∃ t, step (completing .cmd qcfg) = .next t ∧ t.gates ≠ (completing .cmd qcfg).gates) ∧
    ∃ t, step (completing .cmd fwv) = .next t ∧ t.fw ≠ (completing .cmd fwv).fw := ⟨⟨_, rfl, by decide⟩, _, rfl, by decide⟩
set_option maxRecDepth 8000 in
theorem witness_ConnectivityStampedOnlyOnSuccess :
    (∃ t, step (completing .data ok23) = .next t ∧ t.out.evValid = true ∧ t.out.evLabel = 5) ∧
    (∃ t, step (completing .cmd entok) = .next t ∧ t.out.evValid = true ∧ t.out.evLabel = 9) ∧
    ∃ t, step (completing .data eng13) = .next t ∧ t.out.evLabel = 6 := ⟨⟨_, rfl, rfl, rfl⟩, ⟨_, rfl, rfl, rfl⟩, _, rfl, rfl⟩
set_option maxRecDepth 8000 in
theorem witness_StepErrorsLeaveSensorState :
    (∃ t, step { accum .data (List.replicate 40 0) with rx := [0xF4], inputs := [polling 500] } = .next t ∧
      t.out.evValid = true ∧ t.out.evLabel = 4) ∧
    ∀ p ∈ [(FrameClass.data, ok23.set 4 0x0C, (7 : BitVec 4)), (.data, frameOf .data [], 8), (.cmd, ack4 0xFE 0 1, 10),
        (.cmd, (ack4 0xFE 0 1).set 4 5, 11), (.cmd, ack4 0xFF 0 0, 12)],
      field (fun t => (t.out.evValid, t.out.evLabel)) (step (completing p.1 p.2.1)) = some (true, p.2.2) :=
  ⟨⟨_, rfl, rfl, rfl⟩, by decide⟩
set_option maxRecDepth 8000 in
theorem witness_BufferHoldsConsumedBytes :
    (let s := completing .data [0xF4, 0xF3];
      FramingInv s ∧ s.input.rst = false ∧ ∃ t, step s = .next t ∧ 0xF3 :: t.rx = s.rx ++ s.input.arrivals ∧
        heldBytes t = [0xF4, 0xF3]) ∧
    (let s : State := { State.reset with rx := [0xF4], inputs := [polling 0] };
      FramingInv s ∧ s.input.rst = false ∧ ∃ t, step s = .next t ∧ 0xF4 :: t.rx = s.rx ++ s.input.arrivals ∧
        heldBytes t = [0xF4]) ∧
    (let s := completing .data ok23;
      FramingInv s ∧ s.input.rst = false ∧ ∃ t, step s = .next t ∧ 0xF5 :: t.rx = s.rx ++ s.input.arrivals ∧
        t.framing.sync = .idle) ∧
    let s : State := { accum .data [0xF4] with inputs := [quietInput 0] };
    FramingInv s ∧ s.input.rst = false ∧ ∃ t, step s = .next t ∧ t.out.rxReady = false :=
  ⟨⟨by decide, rfl, _, rfl, rfl, rfl⟩, ⟨by decide, rfl, _, rfl, rfl, rfl⟩, ⟨by decide, rfl, _, rfl, rfl, rfl⟩,
    by decide, rfl, _, rfl, rfl⟩
set_option maxRecDepth 8000 in
theorem witness_FramingInvKept : FramingInv (completing .cmd qcfg) ∧ ∃ t, step (completing .cmd qcfg) = .next t :=
  ⟨by decide, _, rfl⟩
theorem witness_TransactionInvKept :
    (TxnInv State.reset ∧ ∃ t, step { State.reset with inputs := [requesting 0x61 0] } = .next t) ∧
    (TxnInv (ended .enter .ackedSuccess .none) ∧ ∃ t, step (ended .enter .ackedSuccess .none) = .next t) ∧
    (TxnInv (ended .target .ackedFailure .none) ∧ ∃ t, step (ended .target .ackedFailure .none) = .next t) :=
  ⟨⟨by decide, _, rfl⟩, ⟨by decide, _, rfl⟩, by decide, _, rfl⟩
theorem witness_ValidFlagsKept : ValidInv (completing .data ok23) ∧ ∃ t, step (completing .data ok23) = .next t :=
  ⟨by decide, _, rfl⟩
theorem witness_NoTickFaults : FramingInv State.reset ∧ FramingInv (accum .data [0xF4]) := by decide
theorem witness_ConnectedForTheStalenessWindow :
    (∃ t, step (completing .data ok23) = .next t ∧ t.out.evValid = true ∧ (t.out.evLabel = 5 ∨ t.out.evLabel = 9)) ∧
    (0 < 2 ^ State.reset.cfg.clockW ∧ 4294967295 < 2 ^ State.reset.cfg.clockW) ∧
    (0 < 2 ^ narrow.clockW ∧ 255 < 2 ^ narrow.clockW ∧ ¬256 < 2 ^ narrow.clockW) ∧
    ({ at500 with conn := ⟨500, false⟩ } : State).conn.valid = false := ⟨⟨_, rfl, rfl, .inl rfl⟩, by decide, by decide, rfl⟩
theorem witness_GoodNormalFrameParsedOnce :
    let s : State := { State.reset with rx := ok23 ++ [0xF4], inputs := List.replicate 22 (polling 1) ++ [polling 500] };
    s.framing.sync = .idle ∧ s.txn.state = .idle ∧ s.rx = ok23 ++ [0xF4] ∧
    (∀ k, k < 19 → (ok23.drop k).take 4 ≠ [(0xF8 : Byte), 0xF7, 0xF6, 0xF5]) ∧
    s.inputs = List.replicate 22 (polling 1) ++ polling 500 :: [] ∧ (List.replicate 22 (polling 1)).length = 22 ∧
    ∀ i ∈ List.replicate 22 (polling 1) ++ [polling 500], i.rst = false ∧ i.poll = true ∧ i.reqValid = false := by decide
theorem witness_DamagedHeaderCostsFortyOneBytes : ∀ p ∈ [((0xF4 : Byte), 0xF3, (0xF2 : Byte), (0xF4 : Byte)), (0xFD, 0xFD, 0xFC, 0xFB)],
    let body := [p.2.1, p.2.2.1, p.2.2.2] ++ List.replicate 36 0 ++ [0xF4];
    let s : State := { State.reset with rx := p.1 :: body ++ [0x01], inputs := List.replicate 41 (polling 1) };
    s.framing.sync = .idle ∧ s.txn.state = .idle ∧ s.rx = p.1 :: body ++ [0x01] ∧ body.length = 40 ∧
    (p.1 = 0xF4 ∧ body.take 3 ≠ [0xF3, 0xF2, 0xF1] ∨ p.1 = 0xFD ∧ body.take 3 ≠ [0xFC, 0xFB, 0xFA]) ∧
    s.inputs = List.replicate 41 (polling 1) ++ [] ∧ (List.replicate 41 (polling 1)).length = 41 ∧
    ∀ i ∈ List.replicate 41 (polling 1), i.rst = false ∧ i.poll = true ∧ i.reqValid = false := by decide
theorem witness_UnansweredRequestTimesOut :
    let s : State := { State.reset with
      inputs := requesting 0x61 0 :: [quietInput 1000, quietInput 1099] ++ quietInput 1100 :: quietInput 5000 :: [] };
    s.txn = Transaction.cleared ∧ s.rx = [] ∧
    s.inputs = requesting 0x61 0 :: [quietInput 1000, quietInput 1099] ++ quietInput 1100 :: quietInput 5000 :: [] ∧
    (requesting 0x61 0).rst = false ∧ (requesting 0x61 0).reqValid = true ∧
    legalRequest s.cfg.argsMax (requesting 0x61 0).reqCode (requesting 0x61 0).reqNargs = true ∧ (requesting 0x61 0).arrivals = [] ∧
    (∀ w ∈ [quietInput 1000, quietInput 1099], w.rst = false ∧ w.arrivals = [] ∧
      elapsed s.cfg w.now (requesting 0x61 0).now < s.cfg.ackTimeoutMs) ∧
    (quietInput 1100).rst = false ∧ s.cfg.ackTimeoutMs ≤ elapsed s.cfg (quietInput 1100).now (requesting 0x61 0).now ∧
    (quietInput 5000).rst = false := by decide

theorem witness_EveryRequestEnds_fair :
    let env : Nat → TickInput := fun k => { requesting 0x61 0 with now := k };
    FramingInv State.reset ∧ State.reset.txn.state = .idle ∧ FairClock State.reset.cfg env ∧ (∀ k, (env k).rst = false) ∧
    (env 0).reqValid = true ∧ legalRequest State.reset.cfg.argsMax (env 0).reqCode (env 0).reqNargs = true := by
  refine ⟨by decide, rfl, ⟨id, by simp, fun _ => rfl, fun b => ⟨b, Nat.le_refl b⟩, ?_⟩, fun _ => rfl, rfl, by decide⟩
  intro j k _ h
  simp only [id, State.reset, Config.default] at *
  omega
theorem witness_EveryRequestEnds_still :
    let s := waiting .enter 0xFF 1099 State.reset;
    s.txn.state = .sent ∧ s.rx = [] ∧
    ∀ k, k < 6 → (quietInput (1094 + k)).rst = false ∧ (quietInput (1094 + k)).arrivals = [] ∧
      elapsed s.cfg (quietInput (1094 + k)).now s.txn.tSend < s.cfg.ackTimeoutMs := by decide

end Sys2Proof.Tests
end

/-! PROOFS. What a tick does to the state, by three kinds: RESET, a tick without a synchronizer step, and a tick that made
one. The statements about every tick are settled from these, those about the transaction registers from `step_cases`. -/
namespace Sys2Proof.Machine
open Sys2Proof

/-! ## Parts of the model's predicates, by name -/

theorem SameTick.cfg {s t : State} (h : SameTick s t) : t.cfg = s.cfg := h.1

theorem SameTick.trans {s t u : State} (h : SameTick s t) (k : SameTick t u) : SameTick s u := by
  obtain ⟨h1, h2, h3, h4⟩ := h
  obtain ⟨k1, k2, k3, k4⟩ := k
  exact ⟨k1.trans h1, k2.trans h2, k3.trans h3, k4.trans h4⟩

theorem SameSensor.conn {s t : State} (h : SameSensor s t) : t.conn = s.conn := h.2.2.2

theorem buf_wf_of_framingInv {s : State} (h : FramingInv s) : Memory.wf s.framing.buf = true := h.2.2.1

theorem heldBytes_length_of_framingInv {s : State} (h : FramingInv s) : (heldBytes s).length = s.framing.bufLen.toNat :=
  h.2.2.2.1

/-! ## The result label of a synchronizer step -/

/-- The successful labels are those with the codes 5 and 9 (R40, R41). -/
theorem frameOk_iff_code (r : Label) : r.frameOk = true ↔ r.code = 5 ∨ r.code = 9 := by
  cases r <;> simp [Label.frameOk, Label.code]

theorem SensorEffect.conn_of_frameOk {s t : State} {r : Label} (h : SensorEffect s t r) (hr : r.frameOk = true) :
    t.conn = ⟨s.now, true⟩ := by
  cases h with
  | telemetry hv hts hc hg hf => exact hc
  | ack c hc ht hg hf => exact hc
  | none r hf h => rw [hf] at hr; cases hr

theorem SensorEffect.conn_of_not_frameOk {s t : State} {r : Label} (h : SensorEffect s t r) (hr : r.frameOk = false) :
    t.conn = s.conn := by
  cases h with
  | telemetry hv hts hc hg hf => cases hr
  | ack c hc ht hg hf => cases hr
  | none r hf h => exact h.conn

/-- A timestamp that a step writes is the tick's clock sample (R26, R32). -/
theorem SensorEffect.timestamps {s t : State} {r : Label} (h : SensorEffect s t r) :
    (t.tel.ts = s.tel.ts ∨ t.tel.ts = s.now) ∧ (t.conn.ts = s.conn.ts ∨ t.conn.ts = s.now) := by
  cases h with
  | telemetry hv hts hc hg hf => exact ⟨.inr hts, .inr (by rw [hc])⟩
  | ack c hc ht hg hf => exact ⟨.inl (by rw [ht]), .inr (by rw [hc])⟩
  | none r hf h =>
    obtain ⟨ht, -, -, hc⟩ := h
    exact ⟨.inl (by rw [ht]), .inl (by rw [hc])⟩

/-- A step that writes a group sets its flag and stamps connectivity; it clears no flag (R33). -/
theorem SensorEffect.validInv {s t : State} {r : Label} (h : SensorEffect s t r) (hs : ValidInv s) : ValidInv t := by
  obtain ⟨htel, hgates, hfw, hconn, hstamp⟩ := hs
  cases h with
  | telemetry hv hts hc hg hf =>
    exact ⟨by simp [hv], by rwa [hg], by rwa [hf], by simp [hc], by simp [hc]⟩
  | ack c hc ht hg hf =>
    refine ⟨by rwa [ht], ?_, ?_, by simp [hc], by simp [hc]⟩
    · rcases hg with hg | ⟨-, hg⟩
      · rwa [hg]
      · simp [hg]
    · rcases hf with hf | ⟨-, hf⟩
      · rwa [hf]
      · simp [hf]
  | none r hf h =>
    obtain ⟨ht, hg, hf, hc⟩ := h
    rw [ValidInv, ht, hg, hf, hc]
    exact ⟨htel, hgates, hfw, hconn, hstamp⟩

/-! ## A synchronizer step, with or without a byte -/

theorem syncStep_part (s t : State) (r : Label) (h : syncStep s = .ok (t, r)) : PartFrame s t := by
  rcases syncStep_cases s t r h with ⟨-, rfl, -⟩ | ⟨b, rest, -, -, hb⟩
  · exact ⟨⟨rfl, rfl, rfl, rfl⟩, rfl, rfl⟩
  · exact hb.part

theorem syncStep_sensor (s t : State) (r : Label) (h : syncStep s = .ok (t, r)) : SensorEffect s t r := by
  rcases syncStep_cases s t r h with ⟨-, rfl, rfl⟩ | ⟨b, rest, -, -, hb⟩
  · exact .none _ rfl ⟨rfl, rfl, rfl, rfl⟩
  · exact hb.sensor

/-- The output ports that a synchronizer step leaves alone and a statement reads. -/
structure StepOutputs (s t : State) : Prop where
  reqReady : t.out.reqReady = s.out.reqReady
  frameOk : t.out.frameOk = s.out.frameOk
  txValid : t.out.txValid = s.out.txValid

/-- Of the output ports a step drives `rx_ready` and the event port only (R44, R49). -/
theorem syncStep_out (s t : State) (r : Label) (h : syncStep s = .ok (t, r)) : StepOutputs s t := by
  rcases syncStep_cases s t r h with ⟨-, rfl, -⟩ | ⟨b, rest, -, -, hb⟩
  · exact ⟨rfl, rfl, rfl⟩
  · exact ⟨by rw [hb.out], by rw [hb.out], by rw [hb.out]⟩

/-- A step at whose start the event port is quiet shows a successful label exactly when it ended with one (R49). -/
theorem syncStep_event (s t : State) (r : Label) (hq : s.out.evValid = false) (h : syncStep s = .ok (t, r)) :
    (t.out.evValid = true ∧ (t.out.evLabel = 5 ∨ t.out.evLabel = 9)) ↔ r.frameOk = true := by
  rcases syncStep_cases s t r h with ⟨-, rfl, rfl⟩ | ⟨b, rest, -, -, hb⟩
  · simp [hq, Label.frameOk]
  · simp [hb.out, frameOk_iff_code]

/-! ## What a tick does outside its synchronizer step -/

/-- What the operations of a tick leave alone outside its synchronizer step and outside RESET. -/
structure OutsideSync (s t : State) : Prop where
  tick : SameTick s t
  framing : t.framing = s.framing
  sensor : SameSensor s t
  rx : t.rx = s.rx
  rxReady : t.out.rxReady = s.out.rxReady
  reqReady : t.out.reqReady = s.out.reqReady

theorem OutsideSync.refl (s : State) : OutsideSync s s := ⟨⟨rfl, rfl, rfl, rfl⟩, rfl, ⟨rfl, rfl, rfl, rfl⟩, rfl, rfl, rfl⟩

theorem acceptRequest_outsideSync (c : Byte) (n : BitVec 5) (a : Vector Byte argSlots) (s : State) :
    OutsideSync s (acceptRequest c n a s) := ⟨⟨rfl, rfl, rfl, rfl⟩, rfl, ⟨rfl, rfl, rfl, rfl⟩, rfl, rfl, rfl⟩

theorem raiseTimeout_outsideSync (s : State) : OutsideSync s (raiseTimeout s) :=
  ⟨⟨rfl, rfl, rfl, rfl⟩, rfl, ⟨rfl, rfl, rfl, rfl⟩, rfl, rfl, rfl⟩

theorem setFrameOk_outsideSync (r : Label) (s : State) : OutsideSync s (setFrameOk r s) :=
  ⟨⟨rfl, rfl, rfl, rfl⟩, rfl, ⟨rfl, rfl, rfl, rfl⟩, rfl, rfl, rfl⟩

theorem observe_outsideSync (r : Label) (s : State) : OutsideSync s (observe r s) :=
  ⟨⟨rfl, rfl, rfl, rfl⟩, rfl, ⟨rfl, rfl, rfl, rfl⟩, rfl, rfl, rfl⟩

theorem advance_outsideSync (s : State) : OutsideSync s (advance s) := by
  rcases advance_cases s with ⟨-, -, h⟩ | ⟨-, -, h⟩ | ⟨-, h⟩ | ⟨-, h⟩ <;> rw [h] <;>
    exact ⟨⟨rfl, rfl, rfl, rfl⟩, rfl, ⟨rfl, rfl, rfl, rfl⟩, rfl, rfl, rfl⟩

/-- A STAGE_ADVANCE shows no event and no parsed frame (R48, R49). -/
theorem advance_out (s : State) :
    (advance s).out.evValid = s.out.evValid ∧ (advance s).out.frameOk = s.out.frameOk := by
  rcases advance_cases s with ⟨-, -, h⟩ | ⟨-, -, h⟩ | ⟨-, h⟩ | ⟨-, h⟩ <;> rw [h] <;> exact ⟨rfl, rfl⟩

/-- The kinds of tick: RESET, a tick that consumes nothing and shows no event but the timeout, and a POLL or wait that made
a synchronizer step and shows its event. -/
inductive TickKind (s t : State) : Prop where
  | reset (hr : s.input.rst = true) (h : t = { resetRegs s.sample with out := Outputs.quiet })
  | still (hr : s.input.rst = false) (h : OutsideSync s.sample t)
      (hev : t.out.evValid = false ∨ t.out.evLabel = txnTimeoutCode)
  | sync (hr : s.input.rst = false) (u : State) (r : Label) (hu : syncStep s.sample = .ok (u, r)) (h : OutsideSync u t)
      (hev : t.out.evValid = u.out.evValid ∧ t.out.evLabel = u.out.evLabel)

theorem step_kind (s t : State) (h : step s = .next t) : TickKind s t := by
  cases step_cases s t h with
  | reset hr => exact .reset hr rfl
  | accept hr hi hv hl => exact .still hr (acceptRequest_outsideSync _ _ _ _) (.inl rfl)
  | poll hr hi hn hp u r hu => exact .sync hr u r hu (setFrameOk_outsideSync r u) ⟨rfl, rfl⟩
  | nop hr hi hn hp => exact .still hr (.refl _) (.inl rfl)
  | timeout hr hi hd => exact .still hr (raiseTimeout_outsideSync _) (.inr rfl)
  | wait hr hi hd u r hu => exact .sync hr u r hu (observe_outsideSync r u) ⟨rfl, rfl⟩
  | advance hr hi hs => exact .still hr (advance_outsideSync _) (.inl (advance_out _).1)

/-! ## Inputs and timestamps -/

theorem nextTick_of_sameTick (s t : State) (h : SameTick s.sample t) : NextTick s t := h

theorem step_nextTick (s t : State) (h : step s = .next t) : NextTick s t := by
  apply nextTick_of_sameTick
  cases step_kind s t h with
  | reset hr h => subst h; exact ⟨rfl, rfl, rfl, rfl⟩
  | still hr h hev => exact h.tick
  | sync hr u r hu h hev => exact (syncStep_part _ _ _ hu).tick.trans h.tick

/-- The send time is kept, cleared, or the tick's clock sample (R36, R194, R214). -/
theorem step_tSend (s t : State) (h : step s = .next t) :
    t.txn.tSend = s.txn.tSend ∨ t.txn.tSend = 0 ∨ t.txn.tSend = s.input.now := by
  cases step_cases s t h with
  | reset hr => exact .inr (.inl rfl)
  | accept hr hi hv hl => exact .inr (.inr rfl)
  | poll hr hi hn hp u r hu => exact .inl (by simp [(syncStep_part _ _ _ hu).txn])
  | nop hr hi hn hp => exact .inl rfl
  | timeout hr hi hd => exact .inl rfl
  | wait hr hi hd u r hu => exact .inl (by simp [(syncStep_part _ _ _ hu).txn])
  | advance hr hi hs =>
    rcases advance_cases s.sample with ⟨-, -, h⟩ | ⟨-, -, h⟩ | ⟨-, h⟩ | ⟨-, h⟩ <;> rw [h]
    · exact .inr (.inr rfl)
    · exact .inr (.inl rfl)
    · exact .inr (.inr rfl)
    · exact .inr (.inl rfl)

/-- The timestamps of Sensor State are kept, cleared, or the tick's clock sample (R26, R32). -/
theorem step_sensor_timestamps (s t : State) (h : step s = .next t) :
    (t.tel.ts = s.tel.ts ∨ t.tel.ts = 0 ∨ t.tel.ts = s.input.now) ∧
    (t.conn.ts = s.conn.ts ∨ t.conn.ts = 0 ∨ t.conn.ts = s.input.now) := by
  cases step_kind s t h with
  | reset hr h => subst h; exact ⟨.inr (.inl rfl), .inr (.inl rfl)⟩
  | still hr h hev =>
    obtain ⟨ht, -, -, hc⟩ := h.sensor
    exact ⟨.inl (by rw [ht]; rfl), .inl (by rw [hc]; rfl)⟩
  | sync hr u r hu h hev =>
    obtain ⟨ht, -, -, hc⟩ := h.sensor
    rw [ht, hc]
    obtain ⟨htel, hconn⟩ := (syncStep_sensor _ _ _ hu).timestamps
    exact ⟨htel.imp_right .inr, hconn.imp_right .inr⟩

/-- A register that is kept, cleared or sampled keeps to `CLOCK_W` bits. -/
theorem timestamp_lt (s : State) (old new : Nat) (hold : old < 2 ^ s.cfg.clockW)
    (h : new = old ∨ new = 0 ∨ new = s.input.now) : new < 2 ^ s.cfg.clockW := by
  rcases h with rfl | rfl | rfl
  · exact hold
  · exact Nat.two_pow_pos _
  · exact input_now_lt s

/-- Settles O9: RESET, a synchronizer step and the controller's operations all leave what `State.sample` took in. -/
theorem tickTakesItsInputs : Obligations.TickTakesItsInputs := by
  intro s t h
  have hn := step_nextTick s t h
  obtain ⟨hcfg, hnow, -, -⟩ := id hn
  have hlt : t.now < 2 ^ t.cfg.clockW := by rw [hnow, hcfg]; exact input_now_lt s
  refine ⟨hn, hlt, fun ⟨_, htel, hconn, hsend⟩ => ?_⟩
  obtain ⟨ktel, kconn⟩ := step_sensor_timestamps s t h
  refine ⟨hlt, ?_, ?_, ?_⟩ <;> rw [hcfg]
  · exact timestamp_lt s _ _ htel ktel
  · exact timestamp_lt s _ _ hconn kconn
  · exact timestamp_lt s _ _ hsend (step_tSend s t h)

/-! ## The output ports and the streams -/

/-- Settles O12: the sample drives `req_ready`, and only RESET overwrites it. -/
theorem requestReadyOnlyWhenIdle : Obligations.RequestReadyOnlyWhenIdle := by
  intro s t h
  have sampled : s.sample.out.reqReady = true ↔ s.txn.state = .idle ∧ s.input.rst = false := by simp [and_comm]
  cases step_kind s t h with
  | reset hr h => simp [h, hr, Outputs.quiet]
  | still hr h hev => rw [h.reqReady, sampled]
  | sync hr u r hu h hev => rw [h.reqReady, (syncStep_out _ _ _ hu).reqReady, sampled]

/-- The inputs that select POLL (R240). -/
theorem decode_tick_poll_iff (max : ArgsMax) (txn : TxnState) (i : TickInput) :
    decode (.tick max txn i) = .ok .poll ↔
      i.rst = false ∧ txn = .idle ∧ (i.reqValid && legalRequest max i.reqCode i.reqNargs) = false ∧ i.poll = true := by
  cases hr : i.rst
  · cases txn with
    | idle =>
      cases hq : i.reqValid && legalRequest max i.reqCode i.reqNargs <;> cases hp : i.poll <;>
        simp [decode, decodeTick, hr, hq, hp, TickOp.toInstr]
    | _ => simp [decode, decodeTick, hr, TickOp.toInstr]
  · simp [decode, decodeTick, hr, TickOp.toInstr]

/-- Settles O13: POLL drives `frame_ok` from the label it shows on the event port, and no other operation drives it. -/
theorem frameOkOnlyForParsedFrames : Obligations.FrameOkOnlyForParsedFrames := by
  intro s t h
  rw [decode_tick_poll_iff]
  cases step_cases s t h with
  | reset hr => simp [hr, Outputs.quiet]
  | accept hr hi hv hl => simp [hv, hl, acceptRequest, Outputs.quiet]
  | poll hr hi hn hp u r hu =>
    have hev := syncStep_event _ u r rfl hu
    simpa [hr, hi, hn, hp] using hev.symm
  | nop hr hi hn hp => simp [hp, Outputs.quiet]
  | timeout hr hi hd => simp [hi, Outputs.quiet]
  | wait hr hi hd u r hu => simp [hi, (syncStep_out _ _ _ hu).frameOk, Outputs.quiet]
  | advance hr hi hs => simp [hi, (advance_out _).2, Outputs.quiet]

/-- Settles O14: only a synchronizer step that found a byte takes the head of `RX`. -/
theorem atMostOneByteConsumed : Obligations.AtMostOneByteConsumed := by
  intro s t h
  cases step_kind s t h with
  | reset hr h => subst h; exact .inl ⟨rfl, rfl⟩
  | still hr h hev => exact .inl ⟨h.rxReady, h.rx⟩
  | sync hr u r hu h hev =>
    rw [h.rx, h.rxReady]
    rcases syncStep_cases _ u r hu with ⟨-, rfl, -⟩ | ⟨b, rest, hrx, -, hb⟩
    · exact .inl ⟨rfl, rfl⟩
    · refine .inr ⟨by simp [hb.out], b, ?_⟩
      rw [hb.rx, hrx, List.tail_cons, ← hrx, sample_rx]

/-- What a tick does to `TX` and the transmit port: nothing, or one whole command frame (R42, R45). -/
def SendsAtMostOne (s t : State) : Prop :=
  (t.out.txValid = false ∧ t.tx = s.tx) ∨
  (t.out.txValid = true ∧ ∃ (code : Byte) (args : List Byte), args.length ≤ 18 ∧ t.tx = s.tx ++ commandFrame code args ∧
    (commandFrame code args).length = 12 + args.length ∧ t.out.txLen.toNat = 12 + args.length ∧
    ∀ k (h : k < 30), t.out.txBytes[k] = (commandFrame code args).getD k 0)

theorem commandFrame_length (code : Byte) (args : List Byte) : (commandFrame code args).length = 12 + args.length := by
  simp [commandFrame, frameOf_length]; omega

/-- A send with at most 18 arguments fits the transmit port (R195). -/
theorem send_sendsAtMostOne (g : Stage) (c : Byte) (a : List Byte) (s : State) (ha : a.length ≤ 18) :
    SendsAtMostOne s (send g c a s) := by
  have hlen := commandFrame_length c a
  refine .inr ⟨rfl, c, a, ha, rfl, hlen, ?_, fun k hk => vecOf_getElem txMax _ k hk⟩
  simp only [send_out, txWrite_out, hlen, BitVec.toNat_ofNat]
  omega

theorem enterArgs_length_le (cfg : Config) : cfg.enterArgs.length ≤ 18 := cfg.enterArgs_le.trans cfg.argsMax.property

theorem leaveArgs_length_le (cfg : Config) : cfg.leaveArgs.length ≤ 18 := cfg.leaveArgs_le.trans cfg.argsMax.property

theorem targetArgs_length_le (t : Transaction) : (targetArgs t).length ≤ 18 := by
  simp [targetArgs]

theorem advance_sendsAtMostOne (s : State) (hq : s.out.txValid = false) : SendsAtMostOne s (advance s) := by
  rcases advance_cases s with ⟨-, -, h⟩ | ⟨-, -, h⟩ | ⟨-, h⟩ | ⟨-, h⟩ <;> rw [h]
  · exact send_sendsAtMostOne _ _ _ _ (targetArgs_length_le _)
  · exact .inl ⟨hq, rfl⟩
  · exact send_sendsAtMostOne _ _ _ _ (leaveArgs_length_le _)
  · exact .inl ⟨hq, rfl⟩

/-- Settles O15: `send` is the only writer of `TX`, and an operation calls it at most once. -/
theorem atMostOneFrameSent : Obligations.AtMostOneFrameSent := by
  intro s t h
  change SendsAtMostOne s.sample t
  cases step_cases s t h with
  | reset hr => exact .inl ⟨rfl, rfl⟩
  | accept hr hi hv hl => exact send_sendsAtMostOne _ _ _ _ (enterArgs_length_le _)
  | poll hr hi hn hp u r hu => exact .inl ⟨(syncStep_out _ _ _ hu).txValid, (syncStep_part _ _ _ hu).tx⟩
  | nop hr hi hn hp => exact .inl ⟨rfl, rfl⟩
  | timeout hr hi hd => exact .inl ⟨rfl, rfl⟩
  | wait hr hi hd u r hu => exact .inl ⟨(syncStep_out _ _ _ hu).txValid, (syncStep_part _ _ _ hu).tx⟩
  | advance hr hi hs => exact advance_sendsAtMostOne _ rfl

/-! ## Sensor State -/

/-- Settles O48: a synchronizer step stamps exactly on the two successful labels, and every other operation shows another
label or none. -/
theorem connectivityStampedOnlyOnSuccess : Obligations.ConnectivityStampedOnlyOnSuccess := by
  intro s t h hrst
  cases step_kind s t h with
  | reset hr h => rw [hr] at hrst; cases hrst
  | still hr h hev =>
    have quiet : ¬(t.out.evValid = true ∧ (t.out.evLabel = 5 ∨ t.out.evLabel = 9)) := by
      rcases hev with hev | hev <;> simp [hev, txnTimeoutCode]
    exact ⟨fun k => absurd k quiet, fun _ => h.sensor.conn⟩
  | sync hr u r hu h hev =>
    have hconn : t.conn = u.conn := h.sensor.conn
    have hs := syncStep_sensor _ u r hu
    rw [hev.1, hev.2, syncStep_event _ u r rfl hu, hconn, Bool.not_eq_true]
    refine ⟨fun hok => ?_, hs.conn_of_not_frameOk⟩
    rw [hs.conn_of_frameOk hok]
    exact ⟨rfl, rfl⟩

theorem validInv_of_sameSensor (s t : State) (h : SameSensor s t) (hs : ValidInv s) : ValidInv t := by
  obtain ⟨ht, hg, hf, hc⟩ := h
  rwa [ValidInv, ht, hg, hf, hc]

/-- Settles O54: outside RESET only the end of a parsed frame writes Sensor State. -/
theorem validFlagsKept : Obligations.ValidFlagsKept := by
  intro s t hs h
  have sampled : ValidInv s.sample := hs
  cases step_kind s t h with
  | reset hr h => subst h; exact ⟨fun _ => rfl, fun _ => rfl, fun _ => rfl, fun _ => rfl, nofun⟩
  | still hr h hev => exact validInv_of_sameSensor _ _ h.sensor sampled
  | sync hr u r hu h hev => exact validInv_of_sameSensor _ _ h.sensor ((syncStep_sensor _ u r hu).validInv sampled)

/-! ## The framing registers -/

/-- What the case of a consumed byte did to the framing registers: left them, started a frame, went on with one that has not
its markers yet, or ended one. -/
inductive FramingEffect (b : Byte) (s t : State) : Prop where
  | skipped (hi : s.framing.sync = .idle) (h : t.framing = s.framing)
  | started (hi : s.framing.sync = .idle) (cls : FrameClass) (hb : (headerOf cls).head? = some b)
      (h : t.framing = ⟨.accum, Memory.write s.framing.buf 0 b, 1, cls⟩)
  | appended (ha : s.framing.sync = .accum) (hl : s.framing.bufLen.toNat < bufCap)
      (hm : minCheckLen ≤ s.framing.bufLen.toNat + 1 → hasMarkers s.framing.bufClass (heldBytes s ++ [b]) = false)
      (h : t.framing = (afterStore b s).framing)
  | ended (hi : t.framing.sync = .idle) (hl : t.framing.bufLen = 0)
      (hw : Memory.wf s.framing.buf = true → Memory.wf t.framing.buf = true)

theorem parseFrame_end (s : State) : FrameEnd s (parseFrame s).1 (parseFrame s).2 := by
  unfold parseFrame
  split
  · exact parseData_end _ s
  · exact parseCmd_end _ s

theorem append_framing (b : Byte) (s t : State) (r : Label) (ha : s.framing.sync = .accum)
    (hs : (heldBytes s).length = s.framing.bufLen.toNat) (h : append b s = .ok (t, r)) : FramingEffect b s t := by
  have hl := (append_cases b s t r h).1
  rw [append_held b s hl hs] at h
  injection h with h
  split at h
  · have hend := (parseFrame_end (afterStore b s)).framing
    rw [h] at hend
    refine .ended (by rw [hend]) (by rw [hend]) fun hw => ?_
    rw [hend]
    exact wf_write _ _ _ hl hw
  · rename_i hm
    cases h
    exact .appended ha hl (fun h8 => by simpa [h8] using hm) rfl

theorem runByte_framing (b : Byte) (s t : State) (r : Label) (hs : (heldBytes s).length = s.framing.bufLen.toNat)
    (h : runByte (decodeByte s.framing.sync s.framing.bufLen b) s = .ok (t, r)) : FramingEffect b s t := by
  unfold decodeByte at h
  split at h
  · rename_i hi
    split at h
    · rename_i hb; cases h; exact .started hi .data (by simp [headerOf, hb]) (by rw [hb]; rfl)
    · split at h
      · rename_i hb; cases h; exact .started hi .cmd (by simp [headerOf, hb]) (by rw [hb]; rfl)
      · cases h; exact .skipped hi rfl
  · rename_i ha
    split at h
    · cases h; exact .ended rfl rfl id
    · exact append_framing b s t r ha hs h

theorem heldBytes_of_framing (s t : State) (h : t.framing = s.framing) : heldBytes t = heldBytes s := by
  rw [heldBytes, h, ← heldBytes]

/-- A frame just started is its start byte. -/
theorem heldBytes_started (t : State) (m : Memory) (b : Byte) (cls : FrameClass)
    (h : t.framing = ⟨.accum, Memory.write m 0 b, 1, cls⟩) : heldBytes t = [b] := by
  simp [heldBytes, h]

theorem framingInv_of_framing (s t : State) (h : t.framing = s.framing) (hs : FramingInv s) : FramingInv t := by
  rwa [FramingInv, heldBytes_of_framing s t h, h]

/-- Between frames the framing invariants ask for the canonical form of the buffer only. -/
theorem framingInv_idle (t : State) (hi : t.framing.sync = .idle) (hl : t.framing.bufLen = 0)
    (hw : Memory.wf t.framing.buf = true) : FramingInv t := by
  simp [FramingInv, heldBytes, hi, hl, hw]

theorem framingInv_started (t : State) (m : Memory) (b : Byte) (cls : FrameClass) (hb : (headerOf cls).head? = some b)
    (hw : Memory.wf m = true) (h : t.framing = ⟨.accum, Memory.write m 0 b, 1, cls⟩) : FramingInv t := by
  rw [FramingInv, heldBytes_started t m b cls h, h]
  refine ⟨by simp, by simp, wf_write m 0 b (by simp) hw, rfl, ?_, ?_, by simp⟩
  · rintro - ⟨⟩; simpa [headerOf, eq_comm] using hb
  · rintro - ⟨⟩; simpa [headerOf, eq_comm] using hb

/-- A byte stored behind a frame in progress leaves the start byte, and the invariant needs no more than that the longer
frame has not its markers. -/
theorem framingInv_afterStore (b : Byte) (s : State) (ha : s.framing.sync = .accum) (hl : s.framing.bufLen.toNat < bufCap)
    (hm : minCheckLen ≤ s.framing.bufLen.toNat + 1 → hasMarkers s.framing.bufClass (heldBytes s ++ [b]) = false)
    (hs : FramingInv s) : FramingInv (afterStore b s) := by
  obtain ⟨hidle, -, hw, hheld, hdata, hcmd, -⟩ := hs
  have hlen := afterStore_bufLen b s hl
  have hpos : s.framing.bufLen.toNat ≠ 0 := fun h0 => by
    have := hidle.mpr (BitVec.eq_of_toNat_eq h0)
    rw [ha] at this; cases this
  have hstart : Memory.read (afterStore b s).framing.buf 0 = Memory.read s.framing.buf 0 :=
    read_write_other _ _ _ _ hpos.symm
  refine ⟨?_, by omega, wf_write _ _ _ hl hw, heldBytes_afterStore_length b s hl hheld, ?_, ?_, ?_⟩
  · constructor
    · intro hi; rw [afterStore_sync, ha] at hi; cases hi
    · intro h0; rw [h0] at hlen; cases hlen
  · rw [hstart]; exact hdata
  · rw [hstart]; exact hcmd
  · intro _ h8
    rw [heldBytes_afterStore b s hl]
    exact hm (hlen ▸ h8)

theorem FramingEffect.framingInv {b : Byte} {s t : State} (h : FramingEffect b s t) (hs : FramingInv s) : FramingInv t := by
  have hw := buf_wf_of_framingInv hs
  cases h with
  | skipped hi h => exact framingInv_of_framing s t h hs
  | started hi cls hb h => exact framingInv_started t _ b cls hb hw h
  | appended ha hl hm h => exact framingInv_of_framing _ t h (framingInv_afterStore b s ha hl hm hs)
  | ended hi hl hk => exact framingInv_idle t hi hl (hk hw)

theorem syncStep_framingInv (s t : State) (r : Label) (hs : FramingInv s) (h : syncStep s = .ok (t, r)) : FramingInv t := by
  rcases syncStep_cases s t r h with ⟨-, rfl, -⟩ | ⟨b, rest, -, hb, -⟩
  · exact hs
  · exact (runByte_framing b s t r (heldBytes_length_of_framingInv hs) hb).framingInv hs

/-- Settles O52, by the cases of the consumed byte. -/
theorem framingInvKept : Obligations.FramingInvKept := by
  intro s t hs h
  have sampled : FramingInv s.sample := framingInv_of_framing s _ rfl hs
  cases step_kind s t h with
  | reset hr h =>
    subst h
    have hw := buf_wf_of_framingInv hs
    exact framingInv_idle _ rfl rfl hw
  | still hr h hev => exact framingInv_of_framing _ t h.framing sampled
  | sync hr u r hu h hev => exact framingInv_of_framing _ t h.framing (syncStep_framingInv _ u r sampled hu)

/-- Where a consumed byte went: the frame in progress is empty, starts with it, or ends with it (R25(d)). -/
theorem FramingEffect.heldBytes_cases {b : Byte} {s t : State} (h : FramingEffect b s t) :
    t.framing.sync = .idle ∨
    (t.framing.sync = .accum ∧ s.framing.sync = .idle ∧ heldBytes t = [b]) ∨
    (t.framing.sync = .accum ∧ s.framing.sync = .accum ∧ heldBytes t = heldBytes s ++ [b]) := by
  cases h with
  | skipped hi h => exact .inl (by rw [h, hi])
  | started hi cls hb h => exact .inr (.inl ⟨by rw [h], hi, heldBytes_started t _ b cls h⟩)
  | appended ha hl hm h =>
    refine .inr (.inr ⟨by rw [h, afterStore_sync, ha], ha, ?_⟩)
    rw [heldBytes_of_framing _ t h, heldBytes_afterStore b s hl]
  | ended hi hl hk => exact .inl hi

/-- A tick that consumed nothing leaves no byte that could have been consumed. -/
theorem not_consumed_of_rx (s t : State) (b : Byte) (h : t.rx = s.sample.rx) : ¬ b :: t.rx = s.rx ++ s.input.arrivals := by
  rw [h, sample_rx]
  exact List.cons_ne_self b _

/-- Settles O50: the byte a synchronizer step consumed is the head of `RX`, and every other tick leaves the frame as it
was. -/
theorem bufferHoldsConsumedBytes : Obligations.BufferHoldsConsumedBytes := by
  intro s t hs hrst h
  cases step_kind s t h with
  | reset hr h => rw [hr] at hrst; cases hrst
  | still hr h hev =>
    exact ⟨fun _ => heldBytes_of_framing s t h.framing, fun b hb => absurd hb (not_consumed_of_rx s t b h.rx)⟩
  | sync hr u r hu h hev =>
    have hheld : (heldBytes s.sample).length = s.sample.framing.bufLen.toNat := heldBytes_length_of_framingInv hs
    rw [heldBytes_of_framing u t h.framing, h.framing, h.rx, h.rxReady]
    rcases syncStep_cases _ u r hu with ⟨-, rfl, -⟩ | ⟨b, rest, hrx, hrun, hb⟩
    · exact ⟨fun _ => rfl, fun b hb => absurd hb (not_consumed_of_rx s _ b rfl)⟩
    · refine ⟨fun hnot => by simp [hb.out] at hnot, fun b' hb' => ?_⟩
      rw [← sample_rx, hrx] at hb'
      obtain ⟨rfl, -⟩ := List.cons_eq_cons.mp hb'
      exact (runByte_framing b' s.sample u r hheld hrun).heldBytes_cases

/-! ## The transaction registers -/

/-- The latched request is legal and its unused argument registers are 0 (R37, R191, R192). -/
def LatchedRequest (max : ArgsMax) (t : Transaction) : Prop :=
  legalRequest max t.tgtCode t.tgtNargs = true ∧
  ∀ k (h : k < argSlots), t.tgtNargs.toNat ≤ k → t.tgtArgs[k] = 0

theorem latchedArgs_above (n : BitVec 5) (a : Vector Byte argSlots) (k : Nat) (hk : k < argSlots) (hn : n.toNat ≤ k) :
    (latchedArgs n a)[k] = 0 := by
  rw [latchedArgs, vecOf_getElem, List.getD_eq_default]
  exact (List.length_take_le _ _).trans hn

theorem txnInv_of_same (s t : State) (hc : t.cfg = s.cfg) (ht : t.txn = s.txn) (hs : TxnInv s) : TxnInv t := by
  rwa [TxnInv, hc, ht]

theorem txnInv_of_cleared (t : State) (h : t.txn = Transaction.cleared) : TxnInv t :=
  ⟨fun _ => h, fun hbusy => absurd (by rw [h]; rfl) hbusy⟩

/-- The invariant of a request in progress, by its parts. -/
theorem txnInv_of_busy (t : State) (hb : t.txn.state ≠ .idle) (hl : LatchedRequest t.cfg.argsMax t.txn)
    (ha : AwaitsItsCode t.txn) (hf : t.txn.state = .ackedFailure → t.txn.stage ≠ .enter) (ho : OutcomesSoFar t.txn) :
    TxnInv t :=
  ⟨fun h => absurd h hb, fun _ => ⟨hl.1, hl.2, ha, hf, ho⟩⟩

theorem acceptRequest_txnInv (c : Byte) (n : BitVec 5) (a : Vector Byte argSlots) (s : State)
    (hl : legalRequest s.cfg.argsMax c n = true) : TxnInv (acceptRequest c n a s) := by
  refine txnInv_of_busy _ nofun ⟨hl, latchedArgs_above n a⟩ ⟨fun _ => rfl, nofun, nofun⟩ nofun
    ⟨fun _ => rfl, fun h => absurd rfl h, fun _ => rfl, nofun, rfl⟩

/-- A change of `txn_state` alone keeps the invariant of a request in progress, unless it puts a failed ack in stage ENTER. -/
theorem txnInv_of_state (s t : State) (st : TxnState) (hc : t.cfg = s.cfg) (ht : t.txn = { s.txn with state := st })
    (hb : s.txn.state ≠ .idle) (hst : st ≠ .idle) (hf : st = .ackedFailure → s.txn.stage ≠ .enter) (hs : TxnInv s) :
    TxnInv t := by
  obtain ⟨hlegal, hargs, hawait, -, hout⟩ := hs.2 hb
  rw [TxnInv, hc, ht]
  exact ⟨fun h => absurd h hst, fun _ => ⟨hlegal, hargs, hawait, hf, hout⟩⟩

/-- A wait stays one or ends with an ack, and a failed one not in stage ENTER (R203). -/
theorem observedState_cases (t : Transaction) (r : Label) :
    observedState t r = t.state ∨ observedState t r = .ackedSuccess ∨
    (observedState t r = .ackedFailure ∧ t.stage ≠ .enter) := by
  unfold observedState
  split
  · split
    · exact .inr (.inl rfl)
    · exact .inl rfl
  · split
    · rename_i hc; exact .inr (.inr ⟨rfl, hc.2⟩)
    · exact .inl rfl
  all_goals exact .inl rfl

theorem observe_txnInv (r : Label) (s : State) (hw : s.txn.state = .sent) (hs : TxnInv s) : TxnInv (observe r s) := by
  have hb : s.txn.state ≠ .idle := by simp [hw]
  rcases observedState_cases s.txn r with h | h | ⟨h, hg⟩
  · exact txnInv_of_state s _ .sent rfl (by simp [h, hw]) hb nofun nofun hs
  · exact txnInv_of_state s _ .ackedSuccess rfl (by simp [h]) hb nofun nofun hs
  · exact txnInv_of_state s _ .ackedFailure rfl (by simp [h]) hb nofun (fun _ => hg) hs

theorem stageOutcome_ne_none (st : TxnState) (hi : st ≠ .idle) (hs : st ≠ .sent) : stageOutcome st ≠ .none := by
  cases st <;> simp_all [stageOutcome]

/-- STAGE_ADVANCE: the outcome of the stage that ended is the one recorded, and the next stage awaits the code it sent. -/
theorem advance_txnInv (s : State) (hb : s.txn.state ≠ .idle) (hw : s.txn.state ≠ .sent) (hs : TxnInv s) :
    TxnInv (advance s) := by
  obtain ⟨hlegal, hargs, -, -, hnone, hsucc, htarget, -, hleave⟩ := hs.2 hb
  rcases advance_cases s with ⟨hg, -, h⟩ | ⟨-, -, h⟩ | ⟨hg, h⟩ | ⟨-, h⟩ <;> rw [h]
  · have hres : s.txn.resTarget = .none := htarget (by simp [hg])
    exact txnInv_of_busy _ nofun ⟨hlegal, hargs⟩ ⟨nofun, fun _ => rfl, nofun⟩ nofun
      ⟨nofun, fun _ => rfl, fun _ => hres, nofun, hleave⟩
  · exact txnInv_of_cleared _ rfl
  · have hres : s.txn.resEnter = .success := hsucc (by simp [hg])
    exact txnInv_of_busy _ nofun ⟨hlegal, hargs⟩ ⟨nofun, nofun, fun _ => rfl⟩ nofun
      ⟨nofun, fun _ => hres, fun h => absurd rfl h, fun _ => stageOutcome_ne_none _ hb hw, hleave⟩
  · exact txnInv_of_cleared _ rfl

/-- Settles O53, by the operations of a tick. -/
theorem transactionInvKept : Obligations.TransactionInvKept := by
  intro s t hs h
  have sampled : TxnInv s.sample := txnInv_of_same s _ rfl rfl hs
  cases step_cases s t h with
  | reset hr => exact txnInv_of_cleared _ rfl
  | accept hr hi hv hl => exact acceptRequest_txnInv _ _ _ _ hl
  | poll hr hi hn hp u r hu =>
    have hu := syncStep_part _ u r hu
    exact txnInv_of_same _ _ hu.tick.cfg hu.txn sampled
  | nop hr hi hn hp => exact sampled
  | timeout hr hi hd =>
    have hbusy : s.sample.txn.state ≠ .idle := by simp [hi]
    exact txnInv_of_state s.sample _ .timedOut rfl rfl hbusy nofun nofun sampled
  | wait hr hi hd u r hu =>
    have hu := syncStep_part _ u r hu
    exact observe_txnInv r u (by rw [hu.txn]; exact hi) (txnInv_of_same _ u hu.tick.cfg hu.txn sampled)
  | advance hr hi hs => exact advance_txnInv _ hi hs sampled

/-! ## The state after reset -/

theorem vecOf_nil_getElem (n k : Nat) (h : k < n) : (vecOf n [])[k] = 0 := by
  rw [vecOf_getElem]; rfl

/-- Settles O32: the registers by their definitions, the vectors by reading a vector of no bytes. -/
theorem resetStateIsTable : Obligations.ResetStateIsTable :=
  ⟨rfl, rfl, rfl, fun _ => rfl, rfl, rfl, rfl, rfl, rfl, rfl,
    fun g hg => ⟨vecOf_nil_getElem nGates g hg, vecOf_nil_getElem nGates g hg⟩,
    rfl, rfl, rfl, rfl, rfl, rfl, rfl, rfl, fun k hk => vecOf_nil_getElem argSlots k hk, rfl, rfl, rfl⟩

/-- Settles O51. -/
theorem invariantsAtReset : Obligations.InvariantsAtReset :=
  ⟨framingInv_idle _ rfl rfl reset_wf, txnInv_of_cleared _ rfl,
    ⟨fun _ => rfl, fun _ => rfl, fun _ => rfl, fun _ => rfl, nofun⟩,
    Nat.two_pow_pos _, Nat.two_pow_pos _, Nat.two_pow_pos _, Nat.two_pow_pos _⟩

end Sys2Proof.Machine

/-! PROOFS. Safety: under the framing invariant every access to the frame buffer is in bounds and to a written byte, so every
tick of a run answers a next state. -/
namespace Sys2Proof.Machine
open Sys2Proof

/-! ## No tick faults -/

/-- The case of a consumed byte answers: the only one that touches the buffer by an offset is the append, which is selected
below a full buffer only (R115, R116). -/
theorem runByte_ok (b : Byte) (s : State) (hs : FramingInv s) :
    ∃ p, runByte (decodeByte s.framing.sync s.framing.bufLen b) s = .ok p := by
  obtain ⟨-, hcap, -, hheld, -⟩ := hs
  cases s.framing.sync with
  | idle =>
    simp only [decodeByte]
    split
    · exact ⟨_, rfl⟩
    · split <;> exact ⟨_, rfl⟩
  | accum =>
    simp only [decodeByte]
    split
    · exact ⟨_, rfl⟩
    · rename_i hfull
      exact ⟨_, append_held b s (Nat.lt_of_le_of_ne hcap hfull) hheld⟩

theorem syncStep_ok (s : State) (hs : FramingInv s) : ∃ t r, syncStep s = .ok (t, r) := by
  unfold syncStep
  split
  · exact ⟨_, _, rfl⟩
  · obtain ⟨⟨t, r⟩, h⟩ := runByte_ok _ s hs
    exact ⟨t, r, h⟩

/-- The operations of a tick that make a synchronizer step answer when it does; the others always do. -/
theorem safeTick_of_syncStep (s t : State) (r : Label) (h : syncStep s.sample = .ok (t, r)) : SafeTick s := by
  unfold SafeTick step fetchOp
  cases decodeTick s.cfg.argsMax s.txn.state s.input with
  | reset => exact ⟨_, rfl⟩
  | reqAccept c n a => exact ⟨_, rfl⟩
  | poll => exact ⟨setFrameOk r t, by simp [TickOp.toInstr, exec, execPoll, poll, h]⟩
  | nop => exact ⟨_, rfl⟩
  | waitTick =>
    cases hd : deadlinePassed s.sample with
    | true => exact ⟨raiseTimeout s.sample, by simp [TickOp.toInstr, exec, execWaitTick, waitTick, hd]⟩
    | false => exact ⟨observe r t, by simp [TickOp.toInstr, exec, execWaitTick, waitTick, hd, h]⟩
  | stageAdvance => exact ⟨_, rfl⟩

theorem safeTick_of_framingInv (s : State) (hs : FramingInv s) : SafeTick s := by
  have sampled : FramingInv s.sample := framingInv_of_framing s _ rfl hs
  obtain ⟨t, r, h⟩ := syncStep_ok _ sampled
  exact safeTick_of_syncStep s t r h

/-- A run does not stop from a state with a property that makes a tick safe and that ticks keep, and it ends with the
property. -/
theorem run_next_of_kept (P : State → Prop) (safe : ∀ s, P s → SafeTick s) (kept : ∀ s t, P s → step s = .next t → P t)
    (k : Nat) (s : State) (hs : P s) : ∃ t, run k s = .next t ∧ P t := by
  induction k generalizing s with
  | zero => exact ⟨s, rfl, hs⟩
  | succ k ih =>
    obtain ⟨u, hu⟩ := safe s hs
    obtain ⟨t, ht, hP⟩ := ih u (kept s u hs hu)
    exact ⟨t, by rw [run, hu]; exact ht, hP⟩

/-- Settles O55: the framing invariant makes a tick safe and every tick keeps it. -/
theorem noTickFaults : Obligations.NoTickFaults := by
  intro s k hs
  obtain ⟨t, ht, hinv⟩ := run_next_of_kept FramingInv safeTick_of_framingInv framingInvKept k s hs
  exact ⟨t, ht, safeTick_of_framingInv t hinv⟩

end Sys2Proof.Machine

/-! PROOFS. Decoding and encoding are inverse to each other. Per format of R99: what the classification of a payload, byte or
tick answers, the bytes of what it answers, and which rows are well-formed. -/
namespace Sys2Proof

/-! ## Format B -/

theorem decodeByte_idle_skip (len : BitVec 6) (b : Byte) (hd : b ≠ 0xF4) (hc : b ≠ 0xFD) :
    decodeByte .idle len b = .idleSkip b := by
  rw [decodeByte, if_neg hd, if_neg hc]

theorem decodeByte_accum_full (len : BitVec 6) (b : Byte) (h : len.toNat = bufCap) :
    decodeByte .accum len b = .overrun b := if_pos h

theorem decodeByte_accum_room (len : BitVec 6) (b : Byte) (h : len.toNat ≠ bufCap) :
    decodeByte .accum len b = .append b := if_neg h

/-- Settles O6: in IDLE by the byte's value, in ACCUM by whether the buffer is full. -/
theorem byteSelectsRow : Obligations.ByteSelectsRow := by
  intro len b
  refine ⟨rfl, rfl, fun hd hc => ?_, fun h => ?_, fun h => ?_⟩
  · rw [decode, decodeByte_idle_skip len b hd hc]; rfl
  · rw [decode, decodeByte_accum_full len b h]; rfl
  · rw [decode, decodeByte_accum_room len b h]; rfl

theorem ByteOp.wf_idleSkip_iff (b : Byte) : (ByteOp.idleSkip b).toInstr.wf = true ↔ b ≠ 0xF4 ∧ b ≠ 0xFD := by
  simp [ByteOp.toInstr, Instr.wf]

theorem decodeByte_wf (st : SyncState) (len : BitVec 6) (b : Byte) : (decodeByte st len b).toInstr.wf = true := by
  unfold decodeByte
  split
  · split
    · rfl
    · rename_i hd
      split
      · rfl
      · rename_i hc; exact (ByteOp.wf_idleSkip_iff b).mpr ⟨hd, hc⟩
  · split <;> rfl

theorem decode_encode_byteOp (op : ByteOp) (h : op.toInstr.wf = true) : decode (encode op.toInstr) = .ok op.toInstr := by
  cases op with
  | idleSkip b =>
    obtain ⟨hd, hc⟩ := (ByteOp.wf_idleSkip_iff b).mp h
    simp only [ByteOp.toInstr, encode, decode, decodeByte_idle_skip 0 b hd hc]
  | sofData => rfl
  | sofCmd => rfl
  | append b => rfl
  | overrun b => rfl

/-! ## Frames -/

/-- Around a payload that fits the buffer the decoder answers the row of the payload's class. -/
theorem decode_data_frameOf (p : List Byte) (h : p.length ≤ 30) :
    decode (.data (frameOf .data p)) = .ok (classifyData p).toInstr := by
  rw [decode, checkFrame_frameOf .data p h]

theorem decode_ack_frameOf (p : List Byte) (h : p.length ≤ 30) :
    decode (.ack (frameOf .cmd p)) = .ok (classifyAck p).toInstr := by
  rw [decode, checkFrame_frameOf .cmd p h]

theorem decode_cmd_frameOf (p : List Byte) (h : p.length ≤ 30) : decode (.cmd (frameOf .cmd p)) = classifyCmd p := by
  rw [decode, checkFrame_frameOf .cmd p h]

/-- A frame that decodes is a frame around a payload that fits the buffer, of which it decodes to the row. -/
theorem decode_data_ok (f : List Byte) (i : Instr) (h : decode (.data f) = .ok i) :
    ∃ p, f = frameOf .data p ∧ p.length ≤ 30 ∧ i = (classifyData p).toInstr := by
  rw [decode] at h
  split at h
  · rename_i p hp
    obtain ⟨hf, hlen⟩ := checkFrame_eq .data f p hp
    cases h
    exact ⟨p, hf, hlen, rfl⟩
  · cases h

theorem decode_ack_ok (f : List Byte) (i : Instr) (h : decode (.ack f) = .ok i) :
    ∃ p, f = frameOf .cmd p ∧ p.length ≤ 30 ∧ i = (classifyAck p).toInstr := by
  rw [decode] at h
  split at h
  · rename_i p hp
    obtain ⟨hf, hlen⟩ := checkFrame_eq .cmd f p hp
    cases h
    exact ⟨p, hf, hlen, rfl⟩
  · cases h

theorem decode_cmd_ok (f : List Byte) (i : Instr) (h : decode (.cmd f) = .ok i) :
    ∃ p, f = frameOf .cmd p ∧ classifyCmd p = .ok i := by
  rw [decode] at h
  split at h
  · rename_i p hp
    exact ⟨p, (checkFrame_eq .cmd f p hp).1, h⟩
  · cases h

/-! ## Format DF -/

/-- The payload of a data frame (R82, R87). -/
def DataFrame.payload : DataFrame → List Byte
  | .eng rest => 0x01 :: 0xAA :: rest
  | .normal tt md me sd se dd u => [0x02, 0xAA, tt, lo8 md, hi8 md, me, lo8 sd, hi8 sd, se, dd, u, 0x55, 0x00]
  | .unknown p => p

theorem encode_dataFrame (f : DataFrame) : encode f.toInstr = .data (frameOf .data f.payload) := by
  cases f <;> rfl

/-- No byte of a payload is dropped by its classification. -/
theorem payload_classifyData (p : List Byte) : (classifyData p).payload = p := by
  unfold classifyData
  split
  · split
    · rename_i h; rw [DataFrame.payload, h.1, h.2]
    · split
      · rename_i ht
        split
        · split
          · rename_i hc; simp [DataFrame.payload, ht, hc]
          · rfl
        · rfl
      · rfl
  · rfl

/-- The two recognised shapes by tag, length and tail (R93). -/
theorem knownDataPayload_cons_cons (t0 t1 : Byte) (rest : List Byte) :
    knownDataPayload (t0 :: t1 :: rest) = true ↔
      (t0 = 0x01 ∧ t1 = 0xAA) ∨ ((t0 = 0x02 ∧ t1 = 0xAA) ∧ rest.length = 11 ∧ rest.drop 9 = [0x55, 0x00]) := by
  simp [knownDataPayload, and_assoc]

theorem DataFrame.knownPayload_or_unknown (f : DataFrame) : knownDataPayload f.payload = true ∨ ∃ p, f = .unknown p := by
  cases f with
  | eng rest => exact .inl rfl
  | normal tt md me sd se dd u => exact .inl rfl
  | unknown p => exact .inr ⟨p, rfl⟩

/-- A payload that no named row recognises is unknown: a named row is one of a recognised payload, and it keeps the bytes. -/
theorem classifyData_of_not_known (p : List Byte) (hk : ¬ knownDataPayload p = true) : classifyData p = .unknown p := by
  have hp := payload_classifyData p
  rcases (classifyData p).knownPayload_or_unknown with h | ⟨q, hq⟩
  · rw [hp] at h; exact absurd h hk
  · rw [hq] at hp ⊢; exact congrArg _ hp

/-- A payload that a named row recognises is not unknown. -/
theorem classifyData_of_known (p q : List Byte) (hk : knownDataPayload p = true) : classifyData p ≠ .unknown q := by
  match p with
  | [] => cases hk
  | [b] => simp [knownDataPayload] at hk
  | t0 :: t1 :: rest =>
    rcases (knownDataPayload_cons_cons t0 t1 rest).mp hk with ⟨rfl, rfl⟩ | ⟨⟨rfl, rfl⟩, hlen, htail⟩
    · exact nofun
    · match rest, hlen with
      | [tt, md0, md1, me, sd0, sd1, se, dd, u, c0, c1], _ =>
        obtain ⟨rfl, rfl⟩ : c0 = 0x55 ∧ c1 = 0x00 := by simpa using htail
        exact nofun

/-- Which data frames are well-formed, on their payload. -/
theorem DataFrame.wf_iff (f : DataFrame) :
    f.toInstr.wf = true ↔ f.payload.length ≤ 30 ∧ ∀ q, f = .unknown q → ¬ knownDataPayload q = true := by
  cases f with
  | eng rest => simp [DataFrame.toInstr, Instr.wf, DataFrame.payload]; omega
  | normal tt md me sd se dd u => simp [DataFrame.toInstr, Instr.wf, DataFrame.payload]
  | unknown p => simp [DataFrame.toInstr, Instr.wf, DataFrame.payload]

theorem classifyData_wf (p : List Byte) (h : p.length ≤ 30) : (classifyData p).toInstr.wf = true := by
  have hp := payload_classifyData p
  rw [DataFrame.wf_iff, hp]
  refine ⟨h, fun q hq hk => ?_⟩
  obtain rfl : q = p := by rw [hq] at hp; exact hp
  exact classifyData_of_known q q hk hq

theorem classifyData_payload (f : DataFrame) (h : f.toInstr.wf = true) : classifyData f.payload = f := by
  cases f with
  | eng rest => rfl
  | normal tt md me sd se dd u => simp [DataFrame.payload, classifyData]
  | unknown p => exact classifyData_of_not_known p (((DataFrame.wf_iff _).mp h).2 p rfl)

theorem decode_encode_dataFrame (f : DataFrame) (h : f.toInstr.wf = true) :
    decode (encode f.toInstr) = .ok f.toInstr := by
  rw [encode_dataFrame, decode_data_frameOf _ ((DataFrame.wf_iff f).mp h).1, classifyData_payload f h]

/-! ## Format CF -/

/-- The payload of an ack frame (R83). -/
def AckFrame.payload : AckFrame → List Byte
  | .enterCfg h st r => ackPayload 0xFF h st r.toList
  | .leaveCfg h st => ackPayload 0xFE h st []
  | .setMaxGate h st => ackPayload 0x60 h st []
  | .queryCfg h st r => ackPayload 0x61 h st r.toList
  | .setSens h st => ackPayload 0x64 h st []
  | .fwVersion h st r => ackPayload 0xA0 h st r.toList
  | .factoryReset h st => ackPayload 0xA2 h st []
  | .restart h st => ackPayload 0xA3 h st []
  | .engStart h st => ackPayload 0x62 h st []
  | .engStop h st => ackPayload 0x63 h st []
  | .unknown p => p

theorem encode_ackFrame (f : AckFrame) : encode f.toInstr = .ack (frameOf .cmd f.payload) := by
  cases f <;> rfl

/-- No byte of a payload is dropped by its classification: the unexamined ones are operands (R91, R92). -/
theorem payload_classifyAck (p : List Byte) : (classifyAck p).payload = p := by
  unfold classifyAck
  split
  · rename_i c h s0 s1 result
    dsimp only
    split
    · rename_i hr
      obtain rfl := List.length_eq_zero_iff.mp hr
      split_ifs <;> simp [AckFrame.payload, ackPayload, *]
    case h_5 => rfl
    all_goals
      rename_i hr
      split_ifs <;> simp [AckFrame.payload, ackPayload, toList_vecOf result hr, *]
  · rfl

theorem knownAckPayload_cons (c : Byte) (rest : List Byte) :
    knownAckPayload (c :: rest) = true ↔ (rest.length + 1, c) ∈ ackShapes := by
  simp [knownAckPayload]

/-- A recognised ack has a payload of at least 4 bytes, the shortest of `SHAPES`. -/
theorem four_le_of_mem_ackShapes (n : Nat) (c : Byte) (h : (n, c) ∈ ackShapes) : 4 ≤ n := by
  have hall : ∀ s ∈ ackShapes, 4 ≤ s.1 := by decide
  exact hall _ h

theorem AckFrame.knownPayload_or_unknown (f : AckFrame) : knownAckPayload f.payload = true ∨ ∃ p, f = .unknown p := by
  cases f with
  | unknown p => exact .inr ⟨p, rfl⟩
  | _ => exact .inl (by simp [AckFrame.payload, ackPayload, knownAckPayload_cons, ackShapes])

/-- A payload whose pair of length and code is not in `SHAPES` is unknown (R94). -/
theorem classifyAck_of_not_known (p : List Byte) (hk : ¬ knownAckPayload p = true) : classifyAck p = .unknown p := by
  have hp := payload_classifyAck p
  rcases (classifyAck p).knownPayload_or_unknown with h | ⟨q, hq⟩
  · rw [hp] at h; exact absurd h hk
  · rw [hq] at hp ⊢; exact congrArg _ hp

/-- A payload whose pair is in `SHAPES` is not unknown: each pair has a row (R94). -/
theorem classifyAck_of_known (p q : List Byte) (hk : knownAckPayload p = true) : classifyAck p ≠ .unknown q := by
  match p with
  | [] => cases hk
  | c :: rest =>
    have hshape := (knownAckPayload_cons c rest).mp hk
    match rest, four_le_of_mem_ackShapes _ c hshape with
    | h :: s0 :: s1 :: result, _ =>
      simp only [ackShapes, List.length_cons, List.mem_cons, Prod.mk.injEq, List.not_mem_nil, or_false,
        Nat.add_assoc, Nat.reduceAdd, Nat.reduceEqDiff] at hshape
      rcases hshape with ⟨hlen, rfl⟩ | ⟨hlen, rfl⟩ | ⟨hlen, rfl⟩ | ⟨hlen, rfl⟩ | ⟨hlen, rfl⟩ | ⟨hlen, rfl⟩ | ⟨hlen, rfl⟩ |
        ⟨hlen, rfl⟩ | ⟨hlen, rfl⟩ | ⟨hlen, rfl⟩ <;> simp [classifyAck, hlen]

/-- Which ack frames are well-formed, on their payload. -/
theorem AckFrame.wf_iff (f : AckFrame) :
    f.toInstr.wf = true ↔ f.payload.length ≤ 30 ∧ ∀ q, f = .unknown q → ¬ knownAckPayload q = true := by
  cases f <;> simp [AckFrame.toInstr, Instr.wf, AckFrame.payload, ackPayload]

theorem classifyAck_wf (p : List Byte) (h : p.length ≤ 30) : (classifyAck p).toInstr.wf = true := by
  have hp := payload_classifyAck p
  rw [AckFrame.wf_iff, hp]
  refine ⟨h, fun q hq hk => ?_⟩
  obtain rfl : q = p := by rw [hq] at hp; exact hp
  exact classifyAck_of_known q q hk hq

theorem classifyAck_payload (f : AckFrame) (h : f.toInstr.wf = true) : classifyAck f.payload = f := by
  cases f with
  | unknown p => exact classifyAck_of_not_known p (((AckFrame.wf_iff _).mp h).2 p rfl)
  | _ => simp [AckFrame.payload, ackPayload, classifyAck]

theorem decode_encode_ackFrame (f : AckFrame) (h : f.toInstr.wf = true) :
    decode (encode f.toInstr) = .ok f.toInstr := by
  rw [encode_ackFrame, decode_ack_frameOf _ ((AckFrame.wf_iff f).mp h).1, classifyAck_payload f h]

/-! ## Format TF -/

/-- The ten codes of R95 name the ten commands, one each. -/
theorem Cmd.ofCode_eq_some_iff (c : Byte) (k : Cmd) : Cmd.ofCode c = some k ↔ c = k.code := by
  constructor
  · unfold Cmd.ofCode
    intro h
    split_ifs at h <;> cases h <;> assumption
  · rintro rfl
    cases k <;> rfl

/-- The payloads of sent frames and the rows they stand for (R193, R195). -/
theorem classifyCmd_ok_iff (p : List Byte) (i : Instr) :
    classifyCmd p = .ok i ↔
      ∃ (k : Cmd) (args : List Byte), p = k.code :: 0x00 :: args ∧ args.length ≤ argSlots ∧ i = k.toInstr args := by
  constructor
  · intro h
    unfold classifyCmd at h
    split at h
    · rename_i c hi args
      split at h
      · rename_i k hk
        split_ifs at h with hhi hlen
        cases h
        rw [(Cmd.ofCode_eq_some_iff c k).mp hk, not_not.mp hhi]
        exact ⟨k, args, rfl, Nat.le_of_not_lt hlen, rfl⟩
      · cases h
    · cases h
  · rintro ⟨k, args, rfl, hlen, rfl⟩
    simp [classifyCmd, (Cmd.ofCode_eq_some_iff _ k).mpr rfl, Nat.not_lt.mpr hlen]

theorem encode_cmd (k : Cmd) (args : List Byte) : encode (k.toInstr args) = .cmd (commandFrame k.code args) := by
  cases k <;> rfl

theorem Cmd.wf_iff (k : Cmd) (args : List Byte) : (k.toInstr args).wf = true ↔ args.length ≤ argSlots := by
  cases k <;> exact decide_eq_true_iff

theorem decode_encode_cmd (k : Cmd) (args : List Byte) (h : (k.toInstr args).wf = true) :
    decode (encode (k.toInstr args)) = .ok (k.toInstr args) := by
  have hlen := (Cmd.wf_iff k args).mp h
  have hfit : (k.code :: 0x00 :: args).length ≤ 30 := by simp only [List.length_cons, argSlots] at *; omega
  rw [encode_cmd, commandFrame, decode_cmd_frameOf _ hfit]
  exact (classifyCmd_ok_iff _ _).mpr ⟨k, args, rfl, hlen, rfl⟩

/-! ## Format H -/

/-- A request that is legal for one `ARGS_MAX` is legal for the largest. -/
theorem legalRequest_all (max : ArgsMax) (c : Byte) (n : BitVec 5) (h : legalRequest max c n = true) :
    legalRequest ArgsMax.all c n = true := by
  simp only [legalRequest, Bool.and_eq_true, decide_eq_true_eq] at h ⊢
  exact ⟨h.1, h.2.trans max.property⟩

theorem decodeTick_wf (max : ArgsMax) (txn : TxnState) (t : TickInput) : (decodeTick max txn t).toInstr.wf = true := by
  unfold decodeTick
  split
  · rfl
  · split
    · split
      · rename_i hq
        exact legalRequest_all max _ _ (Bool.and_eq_true_iff.mp hq).2
      · split <;> rfl
    all_goals rfl

theorem decode_encode_tickOp (op : TickOp) (h : op.toInstr.wf = true) : decode (encode op.toInstr) = .ok op.toInstr := by
  cases op with
  | reqAccept c n a =>
    have hl : legalRequest ArgsMax.all c n = true := h
    simp [TickOp.toInstr, encode, decode, decodeTick, quietInput, hl]
  | reset => rfl
  | poll => rfl
  | nop => rfl
  | waitTick => rfl
  | stageAdvance => rfl

/-! ## The statements over all formats -/

/-- Every row is the row of a byte, a data frame, an ack frame, a command frame or a tick (R99). -/
theorem Instr.formatCases {P : Instr → Prop} (b : ∀ op : ByteOp, P op.toInstr) (df : ∀ f : DataFrame, P f.toInstr)
    (cf : ∀ f : AckFrame, P f.toInstr) (tf : ∀ (k : Cmd) (args : List Byte), P (k.toInstr args))
    (h : ∀ op : TickOp, P op.toInstr) (i : Instr) : P i := by
  cases i with
  | idleSkip x => exact b (.idleSkip x)
  | sofData => exact b .sofData
  | sofCmd => exact b .sofCmd
  | append x => exact b (.append x)
  | overrun x => exact b (.overrun x)
  | dataEng rest => exact df (.eng rest)
  | dataNormal tt md me sd se dd u => exact df (.normal tt md me sd se dd u)
  | dataUnknown p => exact df (.unknown p)
  | ackEnterCfg hi st r => exact cf (.enterCfg hi st r)
  | ackLeaveCfg hi st => exact cf (.leaveCfg hi st)
  | ackSetMaxGate hi st => exact cf (.setMaxGate hi st)
  | ackQueryCfg hi st r => exact cf (.queryCfg hi st r)
  | ackSetSens hi st => exact cf (.setSens hi st)
  | ackFwVersion hi st r => exact cf (.fwVersion hi st r)
  | ackFactoryReset hi st => exact cf (.factoryReset hi st)
  | ackRestart hi st => exact cf (.restart hi st)
  | ackEngStart hi st => exact cf (.engStart hi st)
  | ackEngStop hi st => exact cf (.engStop hi st)
  | ackUnknown p => exact cf (.unknown p)
  | cmdEnterCfg a => exact tf .enterCfg a
  | cmdLeaveCfg a => exact tf .leaveCfg a
  | cmdSetMaxGate a => exact tf .setMaxGate a
  | cmdQueryCfg a => exact tf .queryCfg a
  | cmdEngStart a => exact tf .engStart a
  | cmdEngStop a => exact tf .engStop a
  | cmdSetSens a => exact tf .setSens a
  | cmdFwVersion a => exact tf .fwVersion a
  | cmdFactoryReset a => exact tf .factoryReset a
  | cmdRestart a => exact tf .restart a
  | reset => exact h .reset
  | reqAccept c n a => exact h (.reqAccept c n a)
  | poll => exact h .poll
  | nop => exact h .nop
  | waitTick => exact h .waitTick
  | stageAdvance => exact h .stageAdvance

/-- Settles O1, by the five formats. -/
theorem decodeEncodeRoundTrip : Obligations.DecodeEncodeRoundTrip :=
  Instr.formatCases decode_encode_byteOp decode_encode_dataFrame decode_encode_ackFrame decode_encode_cmd
    decode_encode_tickOp

/-- Settles O2: a frame that decodes is built around its payload, and the payload is that of its row. -/
theorem encodeDecodeFrames : Obligations.EncodeDecodeFrames := by
  intro f i
  refine ⟨fun h => ?_, fun h => ?_, fun h => ?_⟩
  · obtain ⟨p, rfl, -, rfl⟩ := decode_data_ok f i h
    rw [encode_dataFrame, payload_classifyData]
  · obtain ⟨p, rfl, -, rfl⟩ := decode_ack_ok f i h
    rw [encode_ackFrame, payload_classifyAck]
  · obtain ⟨p, rfl, hp⟩ := decode_cmd_ok f i h
    obtain ⟨k, args, rfl, -, rfl⟩ := (classifyCmd_ok_iff p i).mp hp
    rw [encode_cmd, commandFrame]

/-- Settles O3, by the forms the decoder reads. -/
theorem decodeAnswersWellFormed : Obligations.DecodeAnswersWellFormed := by
  intro c i h
  cases c with
  | byte st len b => cases h; exact decodeByte_wf st len b
  | data f =>
    obtain ⟨p, -, hlen, rfl⟩ := decode_data_ok f i h
    exact classifyData_wf p hlen
  | ack f =>
    obtain ⟨p, -, hlen, rfl⟩ := decode_ack_ok f i h
    exact classifyAck_wf p hlen
  | cmd f =>
    obtain ⟨p, -, hp⟩ := decode_cmd_ok f i h
    obtain ⟨k, args, -, hlen, rfl⟩ := (classifyCmd_ok_iff p i).mp hp
    exact (Cmd.wf_iff k args).mpr hlen
  | tick max txn t => cases h; exact decodeTick_wf max txn t

end Sys2Proof

/-! PROOFS. The synchronizer: the length check of a frame, the rows of format B one by one, and a POLL with and without a
byte. -/
namespace Sys2Proof

/-! ## The markers and the length check -/

theorem hasMarkers_iff (cls : FrameClass) (f : List Byte) :
    hasMarkers cls f = true ↔ f.take 4 = headerOf cls ∧ f.drop (f.length - 4) = trailerOf cls := by
  simp [hasMarkers]

/-- The length check on unbounded integers (R124). -/
theorem lengthOk_iff (f : List Byte) :
    lengthOk f = true ↔ (f.getD 4 0).toNat + 256 * (f.getD 5 0).toNat + 10 = f.length := by
  simp only [lengthOk, declaredLength, le16_toNat, beq_iff_eq]

theorem lengthOk_frameOf (cls : FrameClass) (p : List Byte) (h : p.length ≤ 30) : lengthOk (frameOf cls p) = true := by
  simp [lengthOk, declaredLength_frameOf cls p (by omega), frameOf_length]

/-- Of a frame that fits the buffer and has its markers only the length is left to check. -/
theorem checkFrame_of_hasMarkers (cls : FrameClass) (f : List Byte) (h8 : 8 ≤ f.length) (h40 : f.length ≤ 40)
    (hm : hasMarkers cls f = true) :
    checkFrame cls f = if lengthOk f then .ok (payloadOf f) else .error .lengthMismatch := by
  have hfit : ¬ bufCap < f.length := Nat.not_lt.mpr h40
  have hlong : ¬ f.length < minCheckLen := Nat.not_lt.mpr h8
  cases hl : lengthOk f <;> simp [checkFrame, hfit, hlong, hm, hl]

theorem checkFrame_lengthMismatch_iff (cls : FrameClass) (f : List Byte) (h8 : 8 ≤ f.length) (h40 : f.length ≤ 40)
    (hm : hasMarkers cls f = true) :
    checkFrame cls f = .error .lengthMismatch ↔
      (f.getD 4 0).toNat + 256 * (f.getD 5 0).toNat + 10 ≠ f.length := by
  rw [checkFrame_of_hasMarkers cls f h8 h40 hm, ne_eq, ← lengthOk_iff]
  cases lengthOk f <;> simp

/-- The decoder hands on what the checks of a received frame reject. -/
theorem decode_data_error_iff (f : List Byte) (r : Reject) :
    decode (.data f) = .error r ↔ checkFrame .data f = .error r := by
  rw [decode]; cases checkFrame .data f <;> simp

theorem decode_ack_error_iff (f : List Byte) (r : Reject) :
    decode (.ack f) = .error r ↔ checkFrame .cmd f = .error r := by
  rw [decode]; cases checkFrame .cmd f <;> simp

/-- Settles O4: with its markers in place a frame can fail the length check only. -/
theorem frameRejectedIffLengthDisagrees : Obligations.FrameRejectedIffLengthDisagrees := by
  intro f h8 h40
  refine ⟨fun hh ht => ?_, fun hh ht => ?_⟩
  · rw [decode_data_error_iff]
    exact checkFrame_lengthMismatch_iff .data f h8 h40 ((hasMarkers_iff .data f).mpr ⟨hh, ht⟩)
  · rw [decode_ack_error_iff]
    exact checkFrame_lengthMismatch_iff .cmd f h8 h40 ((hasMarkers_iff .cmd f).mpr ⟨hh, ht⟩)

end Sys2Proof

namespace Sys2Proof.Machine
open Sys2Proof

/-! ## The meaning of a row is its part of a synchronizer step -/

theorem exec_byteOp (op : ByteOp) (s : State) : exec op.toInstr s = stepOutcome (runByte op s) := by
  cases op <;> rfl

theorem exec_dataFrame (f : DataFrame) (s : State) : exec f.toInstr s = .next (runData f s).1 := by
  cases f <;> rfl

theorem exec_ackFrame (f : AckFrame) (s : State) : exec f.toInstr s = .next (runAck f s).1 := by
  cases f <;> rfl

theorem exec_append (b : Byte) (s : State) : exec (.append b) s = stepOutcome (append b s) := exec_byteOp (.append b) s

/-! ## IDLE.SKIP, the start rows and OVERRUN -/

/-- Settles O16. -/
theorem idleSkipDiscards : Obligations.IdleSkipDiscards := by
  intro b s hi hd hc
  refine ⟨?_, (idleSkip s).1, exec_byteOp (.idleSkip b) s, rfl, ⟨rfl, rfl, rfl, rfl⟩, rfl,
    ⟨rfl, rfl, rfl, rfl⟩, rfl, rfl, rfl⟩
  rw [hi, decode, decodeByte_idle_skip _ b hd hc, ByteOp.toInstr]

/-- Settles O17: the two rows are one operation, with the class and its start byte as arguments. -/
theorem startByteStartsFrame : Obligations.StartByteStartsFrame := by
  intro s p hp
  have hexec : exec p.1 s = .next (startFrame p.2.2 p.2.1 s).1 := by
    simp only [List.mem_cons, List.not_mem_nil, or_false] at hp
    rcases hp with rfl | rfl
    · exact exec_byteOp .sofData s
    · exact exec_byteOp .sofCmd s
  have hstored : StoredByte 0 p.2.1 s (startFrame p.2.2 p.2.1 s).1 := storedByte_write _ _ _ _ rfl
  exact ⟨_, hexec, rfl, rfl, rfl, hstored, ⟨rfl, rfl, rfl, rfl⟩, rfl, ⟨rfl, rfl, rfl, rfl⟩, rfl, rfl, rfl⟩

/-- Settles O18. -/
theorem overrunDropsByte : Obligations.OverrunDropsByte := by
  intro b s
  have hreset : FramingReset s (overrun s).1 := ⟨rfl, rfl, rfl, fun _ => rfl⟩
  exact ⟨_, exec_byteOp (.overrun b) s, hreset, ⟨rfl, rfl, rfl, rfl⟩, rfl, ⟨rfl, rfl, rfl, rfl⟩, rfl, rfl, rfl⟩

/-! ## APPEND -/

theorem bufferHolds_of_framing (s t : State) (bytes : List Byte) (h : t.framing = s.framing) (hs : BufferHolds s bytes) :
    BufferHolds t bytes := by
  rwa [BufferHolds, heldBytes_of_framing s t h, h]

theorem bufferHolds_full {s : State} {bytes : List Byte} (h : BufferHolds s bytes) :
    (heldBytes s).length = s.framing.bufLen.toNat := by
  rw [h.1, h.2]

theorem bufferHolds_afterStore (b : Byte) (s : State) (bytes : List Byte) (h : BufferHolds s bytes)
    (hl : bytes.length < 40) : BufferHolds (afterStore b s) (bytes ++ [b]) := by
  obtain ⟨hlen, hheld⟩ := h
  have hroom : s.framing.bufLen.toNat < bufCap := hlen ▸ hl
  refine ⟨?_, ?_⟩
  · rw [afterStore_bufLen b s hroom, hlen, List.length_append, List.length_singleton]
  · rw [heldBytes_afterStore b s hroom, hheld]

/-- An append that completes no frame stores its byte and ends there (R116, R117). -/
theorem append_accumulates (b : Byte) (bytes : List Byte) (s : State) (h : BufferHolds s bytes) (hl : bytes.length < 40)
    (hm : bytes.length + 1 < 8 ∨ hasMarkers s.framing.bufClass (bytes ++ [b]) = false) :
    append b s = .ok (endStep .accumulating (afterStore b s)) := by
  have hfull := bufferHolds_full h
  obtain ⟨hlen, hheld⟩ := h
  rw [append_held b s (hlen ▸ hl) hfull, hlen, hheld, if_neg]
  rintro ⟨h8, hmark⟩
  rcases hm with hm | hm
  · exact absurd h8 (Nat.not_le.mpr hm)
  · rw [hm] at hmark; cases hmark

/-- An append that completes a frame stores its byte and hands the frame to the parser of its class (R118). -/
theorem append_completes (b : Byte) (bytes : List Byte) (s : State) (h : BufferHolds s bytes) (h7 : 7 ≤ bytes.length)
    (hl : bytes.length < 40) (hm : hasMarkers s.framing.bufClass (bytes ++ [b]) = true) :
    append b s = .ok (parseFrame (afterStore b s)) := by
  have hfull := bufferHolds_full h
  obtain ⟨hlen, hheld⟩ := h
  rw [append_held b s (hlen ▸ hl) hfull, hlen, hheld, if_pos ⟨Nat.succ_le_succ h7, hm⟩]

/-- The label of a frame whose declared length disagrees, by its class (R142, R177). -/
def mismatchLabel : FrameClass → Label
  | .data => .dataLenMismatch
  | .cmd => .ackLenMismatch

theorem mismatchLabel_code (cls : FrameClass) : (mismatchLabel cls).code = if cls = .data then 7 else 11 := by
  cases cls <;> rfl

theorem mismatchLabel_info (cls : FrameClass) : (mismatchLabel cls).info = 0 := by
  cases cls <;> rfl

/-- The length check comes first, whatever the class and the payload (R178). -/
theorem parseFrame_of_lengthMismatch (s : State) (h : ¬ lengthOk (heldBytes s) = true) :
    parseFrame s = raiseError (mismatchLabel s.framing.bufClass) s := by
  unfold parseFrame
  cases s.framing.bufClass with
  | data => exact if_neg h
  | cmd => exact if_neg h

/-- A consistent frame is parsed as the row its payload is classified to (R140, R160). -/
theorem parseFrame_data (s : State) (p : List Byte) (hcls : s.framing.bufClass = .data) (hs : heldBytes s = frameOf .data p)
    (h : p.length ≤ 30) : parseFrame s = runData (classifyData p) s := by
  simp only [parseFrame, hcls, hs, parseData, lengthOk_frameOf .data p h, payloadOf_frameOf, if_true]

theorem parseFrame_ack (s : State) (p : List Byte) (hcls : s.framing.bufClass = .cmd) (hs : heldBytes s = frameOf .cmd p)
    (h : p.length ≤ 30) : parseFrame s = runAck (classifyAck p) s := by
  simp only [parseFrame, hcls, hs, parseCmd, lengthOk_frameOf .cmd p h, payloadOf_frameOf, if_true]

/-- Settles O19. -/
theorem appendAccumulates : Obligations.AppendAccumulates := by
  intro b bytes s ha h hl hm
  have hexec : exec (.append b) s = .next (endStep .accumulating (afterStore b s)).1 := by
    rw [exec_append, append_accumulates b bytes s h hl hm, stepOutcome]
  have hstored := storedByte_write s (endStep .accumulating (afterStore b s)).1 s.framing.bufLen.toNat b rfl
  have hheld := bufferHolds_of_framing _ (endStep .accumulating (afterStore b s)).1 _ rfl
    (bufferHolds_afterStore b s bytes h hl)
  exact ⟨_, hexec, ha, rfl, hstored, hheld, ⟨rfl, rfl, rfl, rfl⟩, rfl, ⟨rfl, rfl, rfl, rfl⟩, rfl, rfl, rfl⟩

/-- An append whose byte makes the frame one around a payload stores it and runs the frame's parser. -/
theorem append_frameOf (b : Byte) (bytes p : List Byte) (cls : FrameClass) (s : State) (h : BufferHolds s bytes)
    (hcls : s.framing.bufClass = cls) (hf : bytes ++ [b] = frameOf cls p) (hp : p.length ≤ 30) :
    append b s = .ok (parseFrame (afterStore b s)) ∧ heldBytes (afterStore b s) = frameOf cls p := by
  have hlen : bytes.length + 1 = p.length + 10 := by
    rw [← frameOf_length cls p, ← hf, List.length_append, List.length_singleton]
  have hm : hasMarkers s.framing.bufClass (bytes ++ [b]) = true := by rw [hcls, hf, hasMarkers_frameOf]
  refine ⟨append_completes b bytes s h (by omega) (by omega) hm, ?_⟩
  rw [(bufferHolds_afterStore b s bytes h (by omega)).2, hf]

/-- Settles O20: a frame that decodes is built around its payload, and parser and decoder classify the payload alike. -/
theorem appendRunsDecodedFrame : Obligations.AppendRunsDecodedFrame := by
  intro b bytes s i _ h
  refine ⟨fun hcls hd => ?_, fun hcls hd => ?_⟩
  · obtain ⟨p, hf, hp, rfl⟩ := decode_data_ok _ i hd
    obtain ⟨hrun, hheld⟩ := append_frameOf b bytes p .data s h hcls hf hp
    rw [exec_append, hrun, parseFrame_data (afterStore b s) p hcls hheld hp, exec_dataFrame, stepOutcome]
  · obtain ⟨p, hf, hp, rfl⟩ := decode_ack_ok _ i hd
    obtain ⟨hrun, hheld⟩ := append_frameOf b bytes p .cmd s h hcls hf hp
    rw [exec_append, hrun, parseFrame_ack (afterStore b s) p hcls hheld hp, exec_ackFrame, stepOutcome]

/-- Settles O21. -/
theorem appendRejectsLengthMismatch : Obligations.AppendRejectsLengthMismatch := by
  intro b bytes s _ h h7 hl hm hdis
  have hbad : ¬ lengthOk (heldBytes (afterStore b s)) = true := by
    rw [(bufferHolds_afterStore b s bytes h hl).2, lengthOk_iff, List.length_append, List.length_singleton]
    exact hdis
  have hexec : exec (.append b) s = .next (raiseError (mismatchLabel s.framing.bufClass) (afterStore b s)).1 := by
    rw [exec_append, append_completes b bytes s h h7 hl hm, parseFrame_of_lengthMismatch _ hbad, stepOutcome,
      afterStore_bufClass]
  have hstored := storedByte_write s (raiseError (mismatchLabel s.framing.bufClass) (afterStore b s)).1
    s.framing.bufLen.toNat b rfl
  refine ⟨_, hexec, rfl, rfl, rfl, hstored, ⟨rfl, rfl, rfl, rfl⟩, rfl, ⟨rfl, rfl, rfl, rfl⟩, rfl, rfl, ?_⟩
  rw [← mismatchLabel_code, ← mismatchLabel_info s.framing.bufClass]
  rfl

/-! ## POLL -/

/-- POLL is one synchronizer step and then `frame_ok` (R242). -/
theorem exec_poll_of_syncStep (s t : State) (r : Label) (h : syncStep s.sample = .ok (t, r)) :
    exec .poll s = .next (setFrameOk r t) := by
  simp only [exec, execPoll, poll, h]

/-- WAIT_TICK before its deadline is one synchronizer step and then the observation of its label (R200). -/
theorem exec_waitTick_of_syncStep (s t : State) (r : Label) (hd : ¬ deadlinePassed s.sample = true)
    (h : syncStep s.sample = .ok (t, r)) : exec .waitTick s = .next (observe r t) := by
  simp only [exec, execWaitTick, waitTick, if_neg hd, h]

theorem exec_poll_of_runByte (s t : State) (b : Byte) (rest : List Byte) (r : Label) (hrx : s.sample.rx = b :: rest)
    (h : runByte (decodeByte s.framing.sync s.framing.bufLen b) s.sample = .ok (t, r)) :
    exec .poll s = .next (setFrameOk r t) := by
  refine exec_poll_of_syncStep s t r ?_
  rw [syncStep, hrx]
  exact h

/-- Settles O34: under the framing invariant the case of the byte answers, and its event shows its label. -/
theorem pollRunsByteRow : Obligations.PollRunsByteRow := by
  intro s b i hs hb hd
  obtain ⟨rest, hrx⟩ := List.head?_eq_some_iff.mp hb
  have sampled : FramingInv s.sample := framingInv_of_framing s _ rfl hs
  obtain ⟨⟨t, r⟩, hrun⟩ := runByte_ok b s.sample sampled
  injection hd with hi
  refine ⟨t, ?_, ?_⟩
  · rw [← hi, exec_byteOp, ← sample_framing, hrun, stepOutcome]
  · have hlabel : t.out.evLabel = r.code := by rw [(runByte_end _ _ _ _ hrun).out]
    have hok : r.frameOk = decide (r.code = 5 ∨ r.code = 9) := by
      rw [Bool.eq_iff_iff, decide_eq_true_iff, frameOk_iff_code]
    rw [exec_poll_of_runByte s t b rest r hrx hrun, hlabel, ← hok, setFrameOk]

/-- Settles O35: with no byte the synchronizer step answers the sampled state. -/
theorem noByteChangesNothing : Obligations.NoByteChangesNothing := by
  intro s hrx harr
  have hempty : s.sample.rx = [] := by rw [sample_rx, hrx, harr, List.append_nil]
  have hsync : syncStep s.sample = .ok (s.sample, .noByte) := by rw [syncStep, hempty]
  refine ⟨exec_poll_of_syncStep s _ _ hsync, rfl, ⟨rfl, rfl, rfl, rfl⟩, rfl, ⟨rfl, rfl, rfl, rfl⟩, hempty, rfl, rfl, rfl, rfl,
    fun hel => ?_⟩
  have hd : ¬ deadlinePassed s.sample = true := by rw [deadlinePassed_sample]; exact Nat.not_le.mpr hel
  exact exec_waitTick_of_syncStep s _ _ hd hsync

end Sys2Proof.Machine

/-! PROOFS. POLL on whole frames: a run of POLLs that fills the buffer byte by byte, and the two ways such a run ends. -/
namespace Sys2Proof.Machine
open Sys2Proof

/-! ## One POLL of a run -/

/-- The inputs of a tick that polls and presents no reset and no request (R240). -/
abbrev PollInput (i : TickInput) : Prop := i.rst = false ∧ i.poll = true ∧ i.reqValid = false

/-- After `n` POLLs that each consumed a byte: the transaction registers and parameters are kept, `n` inputs are gone, and
of `RX` the first `n` bytes, behind which stands what arrived. -/
structure Polled (n : Nat) (s t : State) : Prop where
  txn : t.txn = s.txn
  cfg : t.cfg = s.cfg
  inputs : t.inputs = s.inputs.drop n
  rx : t.rx = s.rx.drop n ++ ((s.inputs.take n).map TickInput.arrivals).flatten

theorem Polled.refl (s : State) : Polled 0 s s := ⟨rfl, rfl, rfl, by simp⟩

theorem drop_of_getElem? {α : Type} (l : List α) (n : Nat) (a : α) (h : l[n]? = some a) :
    l.drop n = a :: l.drop (n + 1) := by
  obtain ⟨hn, rfl⟩ := List.getElem?_eq_some_iff.mp h
  exact List.drop_eq_getElem_cons hn

/-- The input of the coming tick of a run is the next the environment presents. -/
theorem Polled.coming_input {n : Nat} {s t : State} (h : Polled n s t) (i : TickInput) (hin : s.inputs[n]? = some i) :
    t.input = { i with now := i.now % 2 ^ s.cfg.clockW } := by
  rw [← h.cfg]
  exact input_cons t i _ (h.inputs.trans (drop_of_getElem? _ _ _ hin))

/-- The byte that the coming POLL consumes is the next of `RX`, and what arrives in its tick goes to the end. -/
theorem Polled.coming_bytes {n : Nat} {s t : State} (h : Polled n s t) (i : TickInput) (b : Byte) (hin : s.inputs[n]? = some i)
    (hb : s.rx[n]? = some b) :
    t.sample.rx = b :: (s.rx.drop (n + 1) ++ ((s.inputs.take (n + 1)).map TickInput.arrivals).flatten) := by
  rw [sample_rx, h.rx, h.coming_input i hin, drop_of_getElem? _ _ _ hb, List.take_add_one, hin]
  simp

theorem step_of_pollInput (s : State) (hi : s.txn.state = .idle) (hr : s.input.rst = false) (hp : s.input.poll = true)
    (hq : s.input.reqValid = false) : step s = exec .poll s := by
  have hd := (decode_tick_poll_iff s.cfg.argsMax s.txn.state s.input).mpr ⟨hr, hi, by rw [hq, Bool.false_and], hp⟩
  injection hd with hop
  rw [step, fetchOp, hop]

/-- One more POLL of a run runs the case of the next byte of `RX` and shows its boolean. -/
theorem Polled.succ {n : Nat} {s t : State} (h : Polled n s t) (hi : s.txn.state = .idle) (i : TickInput) (b : Byte)
    (hin : s.inputs[n]? = some i) (hp : PollInput i) (hb : s.rx[n]? = some b) (u : State) (r : Label)
    (hrun : runByte (decodeByte t.framing.sync t.framing.bufLen b) t.sample = .ok (u, r)) :
    step t = .next (setFrameOk r u) ∧ Polled (n + 1) s (setFrameOk r u) := by
  obtain ⟨hrst, hpoll, hreq⟩ := hp
  have hinput := h.coming_input i hin
  have hrx := h.coming_bytes i b hin hb
  have hstep : step t = exec .poll t :=
    step_of_pollInput t (by rw [h.txn, hi]) (by rw [hinput, hrst]) (by rw [hinput, hpoll]) (by rw [hinput, hreq])
  have hend := runByte_end _ _ _ _ hrun
  obtain ⟨hcfg, -, hinputs, -⟩ := hend.part.tick
  refine ⟨hstep.trans (exec_poll_of_runByte t u b _ r hrx hrun), hend.part.txn.trans h.txn, hcfg.trans h.cfg, ?_, ?_⟩
  · rw [setFrameOk_inputs, hinputs, sample_inputs, h.inputs, List.tail_drop]
  · rw [setFrameOk_rx, hend.rx, hrx, List.tail_cons]

theorem SensorEffect.same_of_not_frameOk {s t : State} {r : Label} (h : SensorEffect s t r) (hr : r.frameOk = false) :
    SameSensor s t := by
  cases h with
  | telemetry hv hts hc hg hf => cases hr
  | ack c hc ht hg hf => cases hr
  | none r hf h => exact h

theorem SameSensor.trans {s t u : State} (h : SameSensor s t) (k : SameSensor t u) : SameSensor s u := by
  obtain ⟨h1, h2, h3, h4⟩ := h
  obtain ⟨k1, k2, k3, k4⟩ := k
  exact ⟨k1.trans h1, k2.trans h2, k3.trans h3, k4.trans h4⟩

/-- A POLL whose step ended without a parsed frame writes no Sensor State. -/
theorem poll_sameSensor (t u : State) (b : Byte) (r : Label) (hr : r.frameOk = false)
    (hrun : runByte (decodeByte t.framing.sync t.framing.bufLen b) t.sample = .ok (u, r)) :
    SameSensor t (setFrameOk r u) :=
  (runByte_end _ _ _ _ hrun).sensor.same_of_not_frameOk hr

/-! ## A run of POLLs in one frame -/

theorem run_succ_of_step (n : Nat) (s t u : State) (h : run n s = .next t) (hu : step t = .next u) :
    run (n + 1) s = .next u := by
  induction n generalizing s with
  | zero => cases h; rw [run, hu]; rfl
  | succ n ih =>
    rw [run] at h ⊢
    cases hs : step s with
    | next v => rw [hs] at h; exact ih v h
    | fault f => rw [hs] at h; cases h
    | refused r => rw [hs] at h; cases h

/-- After `n` POLLs the frame in progress is the `n` bytes they consumed, and no frame has been parsed. -/
structure FrameSoFar (cls : FrameClass) (n : Nat) (s t : State) : Prop where
  polled : Polled n s t
  sync : t.framing.sync = .accum
  bufClass : t.framing.bufClass = cls
  held : BufferHolds t (s.rx.take n)
  sensor : SameSensor s t
  frameOk : t.out.frameOk = false

theorem FrameSoFar.bufLen {cls : FrameClass} {n : Nat} {s t : State} (h : FrameSoFar cls n s t) (hn : n ≤ s.rx.length) :
    t.framing.bufLen.toNat = n := by
  rw [h.held.1, List.length_take, Nat.min_eq_left hn]

theorem runByte_start (cls : FrameClass) (len : BitVec 6) (b : Byte) (s : State) (hb : (headerOf cls).head? = some b) :
    runByte (decodeByte .idle len b) s = .ok (startFrame cls b s) := by
  cases cls <;> cases hb <;> rfl

/-- The first POLL of a frame consumes its start byte. -/
theorem frameSoFar_start (cls : FrameClass) (s : State) (i : TickInput) (b : Byte) (hi : s.txn.state = .idle)
    (hs : s.framing.sync = .idle) (hin : s.inputs[0]? = some i) (hp : PollInput i) (hb : s.rx[0]? = some b)
    (hstart : (headerOf cls).head? = some b) : ∃ t, step s = .next t ∧ FrameSoFar cls 1 s t := by
  have hrun : runByte (decodeByte s.framing.sync s.framing.bufLen b) s.sample = .ok (startFrame cls b s.sample) := by
    rw [hs, runByte_start cls _ b _ hstart]
  obtain ⟨hstep, hpolled⟩ := (Polled.refl s).succ hi i b hin hp hb _ _ hrun
  have hheld : heldBytes (startFrame cls b s.sample).1 = s.rx.take 1 := by
    rw [heldBytes_started _ s.framing.buf b cls rfl, List.take_add_one, hb]; rfl
  exact ⟨_, hstep, hpolled, rfl, rfl, ⟨by rw [← hheld, heldBytes_started _ s.framing.buf b cls rfl]; rfl, hheld⟩,
    poll_sameSensor s _ b .started rfl hrun, rfl⟩

/-- The case of the next byte of a frame that is not full is the append. -/
theorem FrameSoFar.runByte_append {cls : FrameClass} {n : Nat} {s t : State} (h : FrameSoFar cls n s t) (b : Byte)
    (hn : n ≤ s.rx.length) (hcap : n < 40) :
    runByte (decodeByte t.framing.sync t.framing.bufLen b) t.sample = append b t.sample := by
  have hroom : t.framing.bufLen.toNat ≠ bufCap := by rw [h.bufLen hn]; exact Nat.ne_of_lt hcap
  rw [h.sync, decodeByte_accum_room _ b hroom, runByte]

/-- A further POLL of a frame that is not complete with its byte. -/
theorem FrameSoFar.succ {cls : FrameClass} {n : Nat} {s t : State} (h : FrameSoFar cls n s t) (hi : s.txn.state = .idle)
    (i : TickInput) (b : Byte) (hin : s.inputs[n]? = some i) (hp : PollInput i) (hb : s.rx[n]? = some b) (hcap : n < 40)
    (hm : n + 1 < 8 ∨ hasMarkers cls (s.rx.take (n + 1)) = false) :
    ∃ u, step t = .next u ∧ FrameSoFar cls (n + 1) s u := by
  obtain ⟨hn, -⟩ := List.getElem?_eq_some_iff.mp hb
  have hlen : (s.rx.take n).length = n := List.length_take_of_le (Nat.le_of_lt hn)
  have hsnoc : s.rx.take n ++ [b] = s.rx.take (n + 1) := by rw [List.take_add_one, hb]; rfl
  have sampled : BufferHolds t.sample (s.rx.take n) := bufferHolds_of_framing t _ _ rfl h.held
  have hrun : runByte (decodeByte t.framing.sync t.framing.bufLen b) t.sample =
      .ok (endStep .accumulating (afterStore b t.sample)) := by
    rw [h.runByte_append b (Nat.le_of_lt hn) hcap]
    exact append_accumulates b _ t.sample sampled (hlen.symm ▸ hcap) (by rwa [hlen, hsnoc, sample_framing, h.bufClass])
  obtain ⟨hstep, hpolled⟩ := h.polled.succ hi i b hin hp hb _ _ hrun
  have hheld : BufferHolds (afterStore b t.sample) (s.rx.take (n + 1)) :=
    hsnoc ▸ bufferHolds_afterStore b t.sample _ sampled (hlen.symm ▸ hcap)
  exact ⟨_, hstep, hpolled, h.sync, h.bufClass, bufferHolds_of_framing _ _ _ rfl hheld,
    h.sensor.trans (poll_sameSensor t _ b .accumulating rfl hrun), rfl⟩

/-- What lets the first `n` bytes of `RX` accumulate: they begin with the start byte of the class, fit the buffer, are not
complete at any length that is checked, and each is polled for. -/
structure Accumulates (cls : FrameClass) (n : Nat) (s : State) : Prop where
  sync : s.framing.sync = .idle
  txn : s.txn.state = .idle
  fits : n ≤ 40
  start : s.rx.head? = (headerOf cls).head?
  bytes : n ≤ s.rx.length
  incomplete : ∀ k, 8 ≤ k → k ≤ n → hasMarkers cls (s.rx.take k) = false
  polls : ∀ k, k < n → ∃ i, s.inputs[k]? = some i ∧ PollInput i

/-- An idle core goes through such a run, one byte a POLL. -/
theorem Accumulates.frameSoFar {cls : FrameClass} {n : Nat} {s : State} (h : Accumulates cls n s) (k : Nat) (hk : k < n) :
    ∃ t, run (k + 1) s = .next t ∧ FrameSoFar cls (k + 1) s t := by
  obtain ⟨i, hin, hp⟩ := h.polls k hk
  have hb := List.getElem?_eq_getElem (Nat.lt_of_lt_of_le hk h.bytes)
  induction k generalizing i with
  | zero =>
    have hstart := h.start
    rw [List.head?_eq_getElem?, hb] at hstart
    obtain ⟨t, hstep, hsofar⟩ := frameSoFar_start cls s i _ h.txn h.sync hin hp hb hstart.symm
    exact ⟨t, run_succ_of_step 0 s s t rfl hstep, hsofar⟩
  | succ k ih =>
    obtain ⟨j, hjn, hj⟩ := h.polls k (Nat.lt_of_succ_lt hk)
    obtain ⟨t, hrun, hsofar⟩ := ih (Nat.lt_of_succ_lt hk) j hjn hj (List.getElem?_eq_getElem _)
    have hincomplete : k + 1 + 1 < 8 ∨ hasMarkers cls (s.rx.take (k + 1 + 1)) = false :=
      (Nat.lt_or_ge (k + 1 + 1) 8).imp_right fun h8 => h.incomplete _ h8 hk
    obtain ⟨u, hstep, hu⟩ := hsofar.succ h.txn i _ hin hp hb (Nat.lt_of_lt_of_le hk h.fits) hincomplete
    exact ⟨u, run_succ_of_step _ s t u hrun hstep, hu⟩

/-! ## How a run ends -/

/-- The POLL whose byte completes a normal-mode frame parses it (R118, R144). -/
theorem FrameSoFar.step_normal {n : Nat} {s t : State} (h : FrameSoFar .data n s t) (hi : s.txn.state = .idle)
    (i : TickInput) (b : Byte) (hin : s.inputs[n]? = some i) (hp : PollInput i) (hb : s.rx[n]? = some b)
    (p : List Byte) (hf : s.rx.take (n + 1) = frameOf .data p) (hlen : p.length ≤ 30)
    (tt : Byte) (md : BitVec 16) (me : Byte) (sd : BitVec 16) (se dd un : Byte)
    (hnormal : classifyData p = .normal tt md me sd se dd un) :
    step t = .next (setFrameOk .dataOk (dataNormal tt md me sd se dd (afterStore b t.sample)).1) := by
  obtain ⟨hn, -⟩ := List.getElem?_eq_some_iff.mp hb
  have hsnoc : s.rx.take n ++ [b] = frameOf .data p := by rw [← hf, List.take_add_one, hb]; rfl
  have hcap : n + 1 = p.length + 10 := by rw [← frameOf_length .data p, ← hf, List.length_take_of_le hn]
  have sampled : BufferHolds t.sample (s.rx.take n) := bufferHolds_of_framing t _ _ rfl h.held
  obtain ⟨happend, hheld⟩ := append_frameOf b _ p .data t.sample sampled h.bufClass hsnoc hlen
  have hrun : runByte (decodeByte t.framing.sync t.framing.bufLen b) t.sample =
      .ok (dataNormal tt md me sd se dd (afterStore b t.sample)) := by
    rw [h.runByte_append b (Nat.le_of_lt hn) (by omega), happend, parseFrame_data (afterStore b t.sample) p h.bufClass hheld hlen,
      hnormal, runData]
  exact (h.polled.succ hi i b hin hp hb _ _ hrun).1

/-- The POLL of a byte behind a full buffer drops it (R115). -/
theorem FrameSoFar.step_overrun {cls : FrameClass} {s t : State} (h : FrameSoFar cls 40 s t) (hi : s.txn.state = .idle)
    (i : TickInput) (b : Byte) (hin : s.inputs[40]? = some i) (hp : PollInput i) (hb : s.rx[40]? = some b) :
    step t = .next (setFrameOk .overrun (overrun t.sample).1) ∧
      Polled 41 s (setFrameOk .overrun (overrun t.sample).1) ∧ SameSensor s (setFrameOk .overrun (overrun t.sample).1) := by
  obtain ⟨hn, -⟩ := List.getElem?_eq_some_iff.mp hb
  have hrun : runByte (decodeByte t.framing.sync t.framing.bufLen b) t.sample = .ok (overrun t.sample) := by
    rw [h.sync, decodeByte_accum_full _ b (h.bufLen (Nat.le_of_lt hn)), runByte]
  obtain ⟨hstep, hpolled⟩ := h.polled.succ hi i b hin hp hb _ _ hrun
  exact ⟨hstep, hpolled, h.sensor.trans (poll_sameSensor t _ b .overrun rfl hrun)⟩

/-! ## The two statements -/

/-- A frame that begins otherwise than its class is never complete (R117). -/
theorem hasMarkers_of_header_ne (cls : FrameClass) (f : List Byte) (h : f.take 4 ≠ headerOf cls) :
    hasMarkers cls f = false := by
  rw [Bool.eq_false_iff, ne_eq, hasMarkers_iff]
  exact fun hm => h hm.1

/-- A frame that ends otherwise than its class is not complete (R117). -/
theorem hasMarkers_of_trailer_ne (cls : FrameClass) (f : List Byte) (h : f.drop (f.length - 4) ≠ trailerOf cls) :
    hasMarkers cls f = false := by
  rw [Bool.eq_false_iff, ne_eq, hasMarkers_iff]
  exact fun hm => h hm.2

/-- The last four of the first `k` elements of a list, read in the part of it that holds them. -/
theorem drop_take_append {α : Type} (w rest : List α) (k : Nat) (h4 : 4 ≤ k) (hk : k ≤ w.length) :
    ((w ++ rest).take k).drop (((w ++ rest).take k).length - 4) = (w.drop (k - 4)).take 4 := by
  rw [List.take_append_of_le_length hk, List.length_take_of_le hk, List.drop_take]
  congr 1
  omega

/-- The inputs of a run of POLLs, tick by tick. -/
theorem polls_of_forall (ticks later : List TickInput) (h : ∀ i ∈ ticks, PollInput i) (k : Nat) (hk : k < ticks.length) :
    ∃ i, (ticks ++ later)[k]? = some i ∧ PollInput i := by
  refine ⟨ticks[k], ?_, h _ (List.getElem_mem hk)⟩
  rw [List.getElem?_append_left hk, List.getElem?_eq_getElem hk]

/-- Settles O58: 22 bytes accumulate, since no four of them in a row are the trailer, and the 23rd completes the frame. -/
theorem goodNormalFrameParsedOnce : Obligations.GoodNormalFrameParsedOnce := by
  intro s tt m0 m1 me s0 s1 se dd u rest ticks later last hsync hidle hrx hquiet hinputs hticks hpoll
  have hframe : [0xF4, 0xF3, 0xF2, 0xF1, 0x0D, 0x00, 0x02, 0xAA, tt, m0, m1, me, s0, s1, se, dd, u, 0x55, 0x00,
      0xF8, 0xF7, 0xF6, 0xF5] = frameOf .data [0x02, 0xAA, tt, m0, m1, me, s0, s1, se, dd, u, 0x55, 0x00] := by
    simp [frameOf, headerOf, trailerOf, lo8, hi8]
  have hacc : Accumulates .data 22 s := by
    refine ⟨hsync, hidle, by omega, by rw [hrx]; rfl, by simp [hrx], fun k h8 hk => ?_, fun k hk => ?_⟩
    · apply hasMarkers_of_trailer_ne
      rw [hrx, drop_take_append _ rest k (by omega) (by simp; omega)]
      exact hquiet (k - 4) (by omega)
    · rw [hinputs]
      exact polls_of_forall ticks _ (fun i hi => hpoll i (List.mem_append_left _ hi)) k (hticks ▸ hk)
  refine ⟨fun k hk => ?_, ?_⟩
  · obtain ⟨t, hrun, hsofar⟩ := hacc.frameSoFar k hk
    exact ⟨t, hrun, hsofar.sensor, hsofar.frameOk⟩
  · obtain ⟨t, hrun, hsofar⟩ := hacc.frameSoFar 21 (by omega)
    have hlast : s.inputs[22]? = some last := by rw [hinputs, ← hticks]; simp
    have hstep := hsofar.step_normal hidle last 0xF5 hlast (hpoll last (by simp)) (by rw [hrx]; rfl) _
      (by rw [hrx]; exact hframe) (by simp) _ _ _ _ _ _ _ rfl
    have hnow : t.sample.now = last.now % 2 ^ s.cfg.clockW := by rw [sample_now, hsofar.polled.coming_input last hlast]
    obtain ⟨-, hgates, hfw, -⟩ := hsofar.sensor
    exact ⟨_, run_succ_of_step 22 s t _ hrun hstep, rfl, rfl, le16_toNat m0 m1, rfl, le16_toNat s0 s1, rfl, rfl, hnow, rfl,
      hnow, rfl, hgates, hfw, hsofar.polled.txn, rfl, rfl⟩

/-- Settles O59: with a damaged header no length completes the frame, so the buffer fills up and the next byte is dropped. -/
theorem damagedHeaderCostsFortyOneBytes : Obligations.DamagedHeaderCostsFortyOneBytes := by
  intro s start body rest ticks later hsync hidle hrx hbody hstart hinputs hticks hpoll
  obtain ⟨cls, hhead, hdamaged⟩ : ∃ cls, (headerOf cls).head? = some start ∧ start :: body.take 3 ≠ headerOf cls := by
    rcases hstart with ⟨rfl, h⟩ | ⟨rfl, h⟩
    · exact ⟨.data, rfl, fun hc => h (List.cons.inj hc).2⟩
    · exact ⟨.cmd, rfl, fun hc => h (List.cons.inj hc).2⟩
  have hpolls : ∀ k, k < 41 → ∃ i, s.inputs[k]? = some i ∧ PollInput i := fun k hk => by
    rw [hinputs]; exact polls_of_forall ticks later hpoll k (hticks ▸ hk)
  have hlen : 41 ≤ s.rx.length := by rw [hrx]; simp [hbody]
  have hacc : Accumulates cls 40 s := by
    refine ⟨hsync, hidle, le_rfl, by rw [hrx, hhead]; rfl, by omega, fun k h8 hk => ?_, fun k hk => hpolls k (by omega)⟩
    apply hasMarkers_of_header_ne
    have hfour : (s.rx.take k).take 4 = start :: body.take 3 := by
      rw [List.take_take, Nat.min_eq_left (by omega), hrx, List.cons_append, List.take_succ_cons,
        List.take_append_of_le_length (by omega)]
    rwa [hfour]
  refine ⟨fun k hk => ?_, ?_⟩
  · obtain ⟨t, hrun, hsofar⟩ := hacc.frameSoFar k hk
    exact ⟨t, hrun, hsofar.sync, hsofar.bufLen (by omega), hsofar.sensor, hsofar.frameOk⟩
  · obtain ⟨t, hrun, hsofar⟩ := hacc.frameSoFar 39 (by omega)
    obtain ⟨i, hin, hp⟩ := hpolls 40 (by omega)
    obtain ⟨hstep, hpolled, hsensor⟩ := hsofar.step_overrun hidle i _ hin hp (List.getElem?_eq_getElem (by omega))
    refine ⟨_, run_succ_of_step 40 s t _ hrun hstep, rfl, rfl, hsensor, hpolled.txn, rfl, rfl, ?_⟩
    have hdropped : s.rx.drop 41 = rest := by rw [hrx, List.drop_left' (by simp [hbody])]
    have htaken : s.inputs.take 41 = ticks := by rw [hinputs, List.take_left' hticks]
    rw [hpolled.rx, hdropped, htaken]

end Sys2Proof.Machine

/-! PROOFS. The data frame parser: what the end of a complete frame leaves alone, the three rows of format DF on it, and who
writes Telemetry State. -/
namespace Sys2Proof

/-- The two recognised shapes of a data frame's payload (R93), for payloads of any length. -/
theorem knownDataPayload_iff (p : List Byte) :
    knownDataPayload p = true ↔
      p.take 2 = [0x01, 0xAA] ∨ (p.take 2 = [0x02, 0xAA] ∧ p.length = 13 ∧ p.drop 11 = [0x55, 0x00]) := by
  simp [knownDataPayload, and_assoc]

/-- Settles O5: each pattern is the encoding of the row it stands for. -/
theorem writtenWordsDecode : Obligations.WrittenWordsDecode :=
  ⟨decodeEncodeRoundTrip (.dataNormal 0x03 100 50 20 25 25 0) rfl, decodeEncodeRoundTrip (.dataEng [0x02]) rfl,
    decodeEncodeRoundTrip (.ackLeaveCfg 0 0) rfl, decodeEncodeRoundTrip (.ackUnknown [0x65, 0x00, 0x00, 0x00]) rfl,
    decodeEncodeRoundTrip (.cmdLeaveCfg []) rfl, decodeEncodeRoundTrip .sofData rfl⟩

end Sys2Proof

namespace Sys2Proof.Machine
open Sys2Proof

/-! ## The rows of format DF -/

/-- The end of a complete frame resets the framing registers and shows its label; the transaction registers, the parameters,
the clock sample, the inputs and the streams stay as they were (R118). -/
theorem FrameEnd.frame {s t : State} {r : Label} (h : FrameEnd s t r) :
    FramingReset s t ∧ t.txn = s.txn ∧ SameTick s t ∧ t.rx = s.rx ∧ t.tx = s.tx ∧ ShowsEvent r.code r.info s t := by
  have hreset : FramingReset s t := by
    rw [FramingReset, SameBytes, h.framing]
    exact ⟨rfl, rfl, rfl, fun _ => rfl⟩
  exact ⟨hreset, h.part.txn, h.part.tick, h.rx, h.part.tx, h.out⟩

/-- Settles O22. -/
theorem normalFrameWritesTelemetry : Obligations.NormalFrameWritesTelemetry := by
  intro tt md me sd se dd u s
  have hend := runData_end (.normal tt md me sd se dd u) s
  exact ⟨_, exec_dataFrame (.normal tt md me sd se dd u) s, rfl, rfl, rfl, rfl, rfl, rfl, rfl, rfl, rfl, rfl, rfl, rfl,
    hend.frame⟩

/-- A data frame whose label is not `DATA_OK` writes no Sensor State (R143, R145). -/
theorem exec_dataFrame_sameSensor (f : DataFrame) (s : State) (hf : (runData f s).2.frameOk = false) :
    ∃ t, exec f.toInstr s = .next t ∧
      FramingReset s t ∧ SameSensor s t ∧ t.txn = s.txn ∧ SameTick s t ∧ t.rx = s.rx ∧ t.tx = s.tx ∧
      ShowsEvent (runData f s).2.code (runData f s).2.info s t := by
  have hend := runData_end f s
  obtain ⟨hreset, hframe⟩ := hend.frame
  exact ⟨_, exec_dataFrame f s, hreset, hend.sensor.same_of_not_frameOk hf, hframe⟩

/-- The reported byte is the one behind the tag, the trailer's first where the payload ends there (R143). -/
theorem engTarget_eq_getD (rest : List Byte) : engTarget rest = (rest ++ [0xF8, 0xF7, 0xF6, 0xF5]).getD 0 0 := by
  cases rest <;> rfl

/-- Settles O23. -/
theorem engineeringFrameWritesNoRegister : Obligations.EngineeringFrameWritesNoRegister := by
  intro rest s
  rw [← engTarget_eq_getD]
  exact exec_dataFrame_sameSensor (.eng rest) s rfl

/-- Settles O24: a payload that no named row recognises is classified as unknown, and that row's label is an error's. -/
theorem unknownDataFrameWritesNothing : Obligations.UnknownDataFrameWritesNothing := by
  intro p s hlen heng hnormal
  have hunknown : classifyData p = .unknown p := by
    apply classifyData_of_not_known
    rw [knownDataPayload_iff]
    exact not_or.mpr ⟨heng, hnormal⟩
  refine ⟨?_, exec_dataFrame_sameSensor (.unknown p) s rfl⟩
  rw [decode_data_frameOf p hlen, hunknown, DataFrame.toInstr]

/-! ## Who writes Telemetry State -/

theorem SameSensor.tel {s t : State} (h : SameSensor s t) : t.tel = s.tel := h.1

theorem SensorEffect.tel_or_dataOk {s t : State} {r : Label} (h : SensorEffect s t r) : t.tel = s.tel ∨ r = .dataOk := by
  cases h with
  | telemetry hv hts hc hg hf => exact .inr rfl
  | ack c hc ht hg hf => exact .inl ht
  | none r hf h => exact .inl h.tel

/-- A synchronizer step that writes Telemetry State shows `DATA_OK` (R49, R147). -/
theorem syncStep_tel (s t : State) (r : Label) (h : syncStep s = .ok (t, r)) :
    t.tel = s.tel ∨ (t.out.evValid = true ∧ t.out.evLabel = 5) := by
  rcases syncStep_cases s t r h with ⟨-, rfl, -⟩ | ⟨b, rest, -, -, hb⟩
  · exact .inl rfl
  · refine hb.sensor.tel_or_dataOk.imp_right fun hr => ?_
    rw [hb.out, hr]
    exact ⟨rfl, rfl⟩

/-- Settles O46: outside RESET only a synchronizer step writes Sensor State, and the tick shows the label of its step. -/
theorem telemetryWrittenOnlyByNormalFrame : Obligations.TelemetryWrittenOnlyByNormalFrame := by
  intro s t h hne
  cases step_kind s t h with
  | reset hr h => exact .inl hr
  | still hr h hev => exact absurd h.sensor.tel hne
  | sync hr u r hu h hev =>
    rw [h.sensor.tel] at hne
    rw [hev.1, hev.2]
    exact .inr ((syncStep_tel _ u r hu).resolve_left hne)

end Sys2Proof.Machine

/-! PROOFS. The command frame parser: an ack of a recognised shape on either status, the fields that the two decoding acks
carry, the rows of format CF on these, and who writes Configuration State. -/
namespace Sys2Proof.Machine
open Sys2Proof

/-! ## The ends of a frame -/

/-- An error at the end of a complete frame resets the framing registers, shows its label and writes nothing (R261). -/
theorem FrameEnd.writes_nothing {s t : State} {r : Label} (h : FrameEnd s t r) (hr : r.frameOk = false) :
    FramingReset s t ∧ SameSensor s t ∧ t.txn = s.txn ∧ SameTick s t ∧ t.rx = s.rx ∧ t.tx = s.tx ∧
      ShowsEvent r.code r.info s t := by
  obtain ⟨hreset, hframe⟩ := h.frame
  exact ⟨hreset, h.sensor.same_of_not_frameOk hr, hframe⟩

/-! ## ACK.UNKNOWN -/

/-- The pair that R162 looks up, as the frame gives it: of an empty payload the code is the first trailer byte, and no shape
has the length 0. -/
theorem knownAckPayload_iff (p : List Byte) :
    knownAckPayload p = true ↔ (p.length, (p ++ [0x04, 0x03, 0x02, 0x01]).getD 0 0) ∈ ackShapes := by
  cases p with
  | nil => exact ⟨nofun, fun h => absurd (four_le_of_mem_ackShapes _ _ h) (by decide)⟩
  | cons c rest => exact knownAckPayload_cons c rest

/-- The reported byte is the one at offset 6, the trailer's first where the payload is empty (R175). -/
theorem unknownCode_eq_getD (p : List Byte) : unknownCode p = (p ++ [0x04, 0x03, 0x02, 0x01]).getD 0 0 := by
  cases p <;> rfl

/-- Settles O29: a pair that is not in `SHAPES` is classified as unknown, and that row's label is an error's. -/
theorem unknownAckWritesNothing : Obligations.UnknownAckWritesNothing := by
  intro p s hlen hpair
  have hunknown : classifyAck p = .unknown p := classifyAck_of_not_known p (mt (knownAckPayload_iff p).mp hpair)
  refine ⟨?_, _, exec_ackFrame (.unknown p) s, ?_⟩
  · rw [decode_ack_frameOf p hlen, hunknown, AckFrame.toInstr]
  · rw [← unknownCode_eq_getD]
    exact (runAck_end (.unknown p) s).writes_nothing rfl

/-! ## Who writes Configuration State -/

theorem SameSensor.gates {s t : State} (h : SameSensor s t) : t.gates = s.gates := h.2.1

theorem SameSensor.fw {s t : State} (h : SameSensor s t) : t.fw = s.fw := h.2.2.1

/-- The event port shows that an ack with this code succeeded (R40, R49). -/
def ShowsAckOk (code : Byte) (t : State) : Prop :=
  t.out.evValid = true ∧ t.out.evLabel = 9 ∧ t.out.evInfo = code

/-- Each group of Configuration State is the same, or the event of its own ack is shown. -/
structure ConfigEffect (s t : State) : Prop where
  gates : t.gates = s.gates ∨ ShowsAckOk 0x61 t
  fw : t.fw = s.fw ∨ ShowsAckOk 0xA0 t

/-- An operation that leaves Sensor State as the tick sampled it writes no group. -/
theorem OutsideSync.configEffect {s t : State} (h : OutsideSync s.sample t) : ConfigEffect s t :=
  ⟨.inl h.sensor.gates, .inl h.sensor.fw⟩

theorem SensorEffect.gates_or_queryCfg {s t : State} {r : Label} (h : SensorEffect s t r) :
    t.gates = s.gates ∨ r = .ackOk 0x61 := by
  cases h with
  | telemetry hv hts hc hg hf => exact .inl hg
  | ack c hc ht hg hf => exact hg.imp_right fun ⟨hcode, _⟩ => by rw [hcode]
  | none r hr h => exact .inl h.gates

theorem SensorEffect.fw_or_fwVersion {s t : State} {r : Label} (h : SensorEffect s t r) :
    t.fw = s.fw ∨ r = .ackOk 0xA0 := by
  cases h with
  | telemetry hv hts hc hg hf => exact .inl hf
  | ack c hc ht hg hf => exact hf.imp_right fun ⟨hcode, _⟩ => by rw [hcode]
  | none r hr h => exact .inl h.fw

theorem ByteEnd.showsAckOk {s t : State} {c : Byte} (h : ByteEnd s t (.ackOk c)) : ShowsAckOk c t := by
  rw [ShowsAckOk, h.out]
  exact ⟨rfl, rfl, rfl⟩

/-- A synchronizer step that writes a group of Configuration State shows the success of the group's ack (R49, R179). -/
theorem syncStep_configEffect (s t : State) (r : Label) (h : syncStep s = .ok (t, r)) : ConfigEffect s t := by
  rcases syncStep_cases s t r h with ⟨-, rfl, -⟩ | ⟨b, rest, -, -, hb⟩
  · exact ⟨.inl rfl, .inl rfl⟩
  · exact ⟨hb.sensor.gates_or_queryCfg.imp_right fun hr => (hr ▸ hb).showsAckOk,
      hb.sensor.fw_or_fwVersion.imp_right fun hr => (hr ▸ hb).showsAckOk⟩

/-- POLL and WAIT_TICK keep the registers and the event of their synchronizer step, and no other operation but RESET writes
Sensor State. -/
theorem step_configEffect (s t : State) (h : step s = .next t) : s.input.rst = true ∨ ConfigEffect s t := by
  cases step_cases s t h with
  | reset hr => exact .inl hr
  | accept hr hi hv hl => exact .inr (acceptRequest_outsideSync _ _ _ _).configEffect
  | poll hr hi hn hp u r hu =>
    obtain ⟨hgates, hfw⟩ := syncStep_configEffect _ u r hu
    exact .inr ⟨hgates, hfw⟩
  | nop hr hi hn hp => exact .inr (OutsideSync.refl _).configEffect
  | timeout hr hi hd => exact .inr (raiseTimeout_outsideSync _).configEffect
  | wait hr hi hd u r hu =>
    obtain ⟨hgates, hfw⟩ := syncStep_configEffect _ u r hu
    exact .inr ⟨hgates, hfw⟩
  | advance hr hi hs => exact .inr (advance_outsideSync _).configEffect

/-- Settles O47. -/
theorem configWrittenOnlyByItsAcks : Obligations.ConfigWrittenOnlyByItsAcks := by
  intro s t h
  rcases step_configEffect s t h with hrst | ⟨hgates, hfw⟩
  · exact ⟨fun _ => .inl hrst, fun _ => .inl hrst⟩
  · exact ⟨fun hne => .inr (hgates.resolve_left hne), fun hne => .inr (hfw.resolve_left hne)⟩

/-! ## An ack of a recognised shape -/

/-- The two status bytes are zero exactly if the word is (R92). -/
theorem statusOk_iff (st : BitVec 16) : statusOk st = true ↔ st = 0 := by
  simp only [statusOk, Bool.and_eq_true, beq_iff_eq]
  constructor
  · rintro ⟨hlo, hhi⟩
    rw [← le16_lo8_hi8 st, hlo, hhi]
    rfl
  · rintro rfl
    exact ⟨rfl, rfl⟩

theorem ackOfShape_of_zero (code : Byte) (own : State → State) (s : State) :
    ackOfShape code 0 own s = endFrame (.ackOk code) (own (stampConn s)) :=
  if_pos ((statusOk_iff 0).mpr rfl)

theorem ackOfShape_of_ne_zero (code : Byte) {st : BitVec 16} (own : State → State) (s : State) (h : st ≠ 0) :
    ackOfShape code st own s = raiseError (.ackStatusFail code) s :=
  if_neg (mt (statusOk_iff st).mp h)

/-- A successful ack without own writes stamps connectivity and ends its frame (R118, R163). -/
theorem plainAck_end (code : Byte) (s : State) :
    FrameEnd s (endFrame (.ackOk code) (stampConn s)).1 (.ackOk code) := by
  have hend := ackOfShape_end code 0 id s rfl (.inl rfl) (.inl rfl)
  rwa [ackOfShape_of_zero] at hend

/-- Settles O25: the eight plain rows are one operation on their codes, the other two stamp before their own writes. -/
theorem successfulAcksStampConnectivity : Obligations.SuccessfulAcksStampConnectivity := by
  intro h r r24 r8 s
  constructor
  · intro p hp
    have hexec : exec p.1 s = .next (ackOfShape p.2 0 id s).1 := by
      simp only [List.mem_cons, List.not_mem_nil, or_false] at hp
      rcases hp with rfl | rfl | rfl | rfl | rfl | rfl | rfl | rfl <;> rfl
    rw [ackOfShape_of_zero] at hexec
    exact ⟨_, hexec, rfl, rfl, rfl, rfl, rfl, (plainAck_end p.2 s).frame⟩
  · intro p hp
    simp only [List.mem_cons, List.not_mem_nil, or_false] at hp
    rcases hp with rfl | rfl
    · exact ⟨_, exec_ackFrame (.queryCfg h 0 r24) s, rfl, rfl, rfl⟩
    · exact ⟨_, exec_ackFrame (.fwVersion h 0 r8) s, rfl, rfl, rfl⟩

/-- Settles O28: the ten rows are one operation on their codes and own writes, which on a non-zero status raises
status-failure before any of these. -/
theorem nonZeroStatusAckWritesNothing : Obligations.NonZeroStatusAckWritesNothing := by
  intro h st r4 r24 r8 s hst p hp
  have hexec : ∃ own, exec p.1 s = .next (ackOfShape p.2 st own s).1 := by
    simp only [List.mem_cons, List.not_mem_nil, or_false] at hp
    rcases hp with rfl | rfl | rfl | rfl | rfl | rfl | rfl | rfl | rfl | rfl <;> exact ⟨_, rfl⟩
  obtain ⟨own, hexec⟩ := hexec
  rw [ackOfShape_of_ne_zero p.2 own s hst] at hexec
  have hend := endFrame_same (.ackStatusFail p.2) s rfl (by simp [Label.code])
  exact ⟨_, hexec, hend.writes_nothing rfl⟩

/-! ## The fields of the two decoding acks -/

/-- A field read at a computed place is the byte there: the places are inside the result (R89, R90). -/
theorem getElem_eq_getD {n : Nat} (v : Vector Byte n) (k : Nat) (h : k < n) : v[k] = v.getD k 0 := by
  simp [Vector.getD, h]

section
variable {cfg : Config} {q : Nat} (r : Vector Byte 24) (hq : q + 10 = cfg.qcfgBase.val)
include hq

/-- The three gate limits are the first three bytes from `QCFG_BASE` on (R89, R166). -/
theorem gatesOf_limits :
    some (gatesOf cfg r).maxGate = r[q]? ∧ some (gatesOf cfg r).maxMovGate = r[q + 1]? ∧
      some (gatesOf cfg r).maxStaGate = r[q + 2]? := by
  obtain rfl : q = cfg.qcfgBase.val - 10 := by omega
  have hbase := cfg.qcfgBase.property
  refine ⟨?_, ?_, ?_⟩ <;> exact (Vector.getElem?_eq_getElem (by omega)).symm

theorem gatesOf_motSens (g : Nat) (hg : g < 9) : (gatesOf cfg r).motSens[g]? = r[q + 3 + g]? := by
  obtain rfl : q = cfg.qcfgBase.val - 10 := by omega
  have hbase := cfg.qcfgBase.property
  rw [Vector.getElem?_eq_getElem hg, Vector.getElem?_eq_getElem (by omega)]
  interval_cases g <;> rfl

theorem gatesOf_staSens (g : Nat) (hg : g < 9) : (gatesOf cfg r).staSens[g]? = r[q + 12 + g]? := by
  obtain rfl : q = cfg.qcfgBase.val - 10 := by omega
  have hbase := cfg.qcfgBase.property
  rw [Vector.getElem?_eq_getElem hg, Vector.getElem?_eq_getElem (by omega)]
  interval_cases g <;> rfl

theorem gatesOf_idleTime :
    (gatesOf cfg r).idleTime.toNat = (r.getD (q + 21) 0).toNat + 256 * (r.getD (q + 22) 0).toNat := by
  obtain rfl : q = cfg.qcfgBase.val - 10 := by omega
  simp only [gatesOf, le16_toNat, getElem_eq_getD]
  rfl

end

section
variable {cfg : Config} {f : Nat} (r : Vector Byte 8) (hf : f + 10 = cfg.fwvBase.val)
include hf

/-- The two version bytes are the first two from `FWV_BASE` on, the minor before the major (R90, R168). -/
theorem firmwareOf_version : some (firmwareOf cfg r).minor = r[f]? ∧ some (firmwareOf cfg r).major = r[f + 1]? := by
  obtain rfl : f = cfg.fwvBase.val - 10 := by omega
  have hbase := cfg.fwvBase.property
  constructor <;> exact (Vector.getElem?_eq_getElem (by omega)).symm

theorem firmwareOf_build :
    (firmwareOf cfg r).build.toNat = (r.getD (f + 2) 0).toNat + 256 * (r.getD (f + 3) 0).toNat +
      65536 * (r.getD (f + 4) 0).toNat + 16777216 * (r.getD (f + 5) 0).toNat := by
  obtain rfl : f = cfg.fwvBase.val - 10 := by omega
  simp only [firmwareOf, le32_toNat, getElem_eq_getD]
  rfl

end

/-- Settles O26. -/
theorem queryConfigAckWritesGates : Obligations.QueryConfigAckWritesGates := by
  intro h r s q hq
  obtain ⟨hmax, hmov, hsta⟩ := gatesOf_limits r hq
  exact ⟨_, exec_ackFrame (.queryCfg h 0 r) s, hmax, hmov, hsta, gatesOf_motSens r hq, gatesOf_staSens r hq,
    gatesOf_idleTime r hq, rfl, rfl, rfl, rfl, rfl, (runAck_end (.queryCfg h 0 r) s).frame⟩

/-- Settles O27. -/
theorem firmwareAckWritesVersion : Obligations.FirmwareAckWritesVersion := by
  intro h r s f hf
  obtain ⟨hminor, hmajor⟩ := firmwareOf_version r hf
  exact ⟨_, exec_ackFrame (.fwVersion h 0 r) s, hminor, hmajor, firmwareOf_build r hf, rfl, rfl, rfl, rfl, rfl,
    (runAck_end (.fwVersion h 0 r) s).frame⟩

end Sys2Proof.Machine

/-! PROOFS. The configuration transaction controller: which inputs a tick looks at, the frame a command row sends, the wait
and what ends it, the end of a stage, and a request that no byte answers. -/
namespace Sys2Proof.Machine
open Sys2Proof

/-! ## What a tick looks at -/

/-- An operation of a tick works on the sampled state and on nothing that the sample leaves out. -/
theorem exec_tickOp_of_sample (op : TickOp) (s t : State) (h : s.sample = t.sample) :
    exec op.toInstr s = exec op.toInstr t := by
  cases op with
  | reset => simp only [TickOp.toInstr, exec, execReset, h]
  | reqAccept c n a => simp only [TickOp.toInstr, exec, execReqAccept, h]
  | poll => simp only [TickOp.toInstr, exec, execPoll, h]
  | nop => simp only [TickOp.toInstr, exec, execNop, h]
  | waitTick => simp only [TickOp.toInstr, exec, execWaitTick, h]
  | stageAdvance => simp only [TickOp.toInstr, exec, execStageAdvance, h]

/-- The sample takes the reset, the clock and the arrivals; `poll` and the request port only select the operation. -/
theorem sample_of_presented (s : State) (i j : TickInput) (later : List TickInput) (h : s.inputs = i :: later)
    (hrst : i.rst = j.rst) (hnow : i.now = j.now) (harr : i.arrivals = j.arrivals) :
    s.sample = State.sample { s with inputs := j :: later } := by
  simp only [State.sample, input_cons s i later h, input_cons { s with inputs := j :: later } j later rfl, h, hrst, hnow, harr,
    List.tail_cons]

/-- Two inputs that differ in `poll` and the request port only, and select the same operation, make the same tick. -/
theorem step_of_presented (s : State) (i j : TickInput) (later : List TickInput) (h : s.inputs = i :: later)
    (hrst : i.rst = j.rst) (hnow : i.now = j.now) (harr : i.arrivals = j.arrivals)
    (hop : ∀ ms : Nat, decodeTick s.cfg.argsMax s.txn.state { i with now := ms } =
      decodeTick s.cfg.argsMax s.txn.state { j with now := ms }) :
    step s = step { s with inputs := j :: later } := by
  have hsample := sample_of_presented s i j later h hrst hnow harr
  rw [step, step, fetchOp, fetchOp, input_cons s i later h, input_cons _ j later rfl, hnow, hop]
  exact exec_tickOp_of_sample _ _ _ hsample

theorem legalRequest_iff (max : ArgsMax) (c : Byte) (n : BitVec 5) :
    legalRequest max c n = true ↔ c ∈ targetCodes ∧ n.toNat ≤ max.val := by
  simp [legalRequest]

theorem decodeTick_of_illegal (max : ArgsMax) (txn : TxnState) (t : TickInput)
    (h : ¬ legalRequest max t.reqCode t.reqNargs = true) :
    decodeTick max txn t = decodeTick max txn { t with reqValid := false } := by
  rw [Bool.not_eq_true] at h
  simp only [decodeTick, h, Bool.and_false]

/-- While a request is in progress `rst` alone selects between RESET and the controller's operation (R240). -/
theorem decodeTick_of_busy (max : ArgsMax) (txn : TxnState) (t u : TickInput) (h : txn ≠ .idle) (hrst : t.rst = u.rst) :
    decodeTick max txn t = decodeTick max txn u := by
  cases txn with
  | idle => exact absurd rfl h
  | _ => simp only [decodeTick, hrst]

/-- Settles O10: an illegal request selects no operation, and the request port is in no sample. -/
theorem illegalRequestIsNoRequest : Obligations.IllegalRequestIsNoRequest := by
  intro s i later hin hillegal
  exact step_of_presented s i _ later hin rfl rfl rfl fun _ =>
    decodeTick_of_illegal _ _ _ (mt (legalRequest_iff _ _ _).mp hillegal)

/-- Settles O11. -/
theorem busyIgnoresPollAndRequest : Obligations.BusyIgnoresPollAndRequest := by
  intro s i later p v c n a hbusy hin
  exact step_of_presented s i _ later hin rfl rfl rfl fun _ => decodeTick_of_busy _ _ _ _ hbusy rfl

theorem step_of_request (s : State) (hi : s.txn.state = .idle) (hr : s.input.rst = false) (hv : s.input.reqValid = true)
    (hl : legalRequest s.cfg.argsMax s.input.reqCode s.input.reqNargs = true) :
    step s = .next (acceptRequest s.input.reqCode s.input.reqNargs s.input.reqArgs s.sample) := by
  simp [step, fetchOp, decodeTick, hi, hr, hv, hl, TickOp.toInstr, exec, execReqAccept]

theorem step_of_sent (s : State) (hi : s.txn.state = .sent) (hr : s.input.rst = false) : step s = exec .waitTick s := by
  simp [step, fetchOp, decodeTick, hi, hr, TickOp.toInstr]

theorem step_of_timedOut (s : State) (hi : s.txn.state = .timedOut) (hr : s.input.rst = false) :
    step s = .next (advance s.sample) := by
  simp [step, fetchOp, decodeTick, hi, hr, TickOp.toInstr, exec, execStageAdvance]

/-! ## Sending a command -/

/-- `Frame(code, args)` byte by byte: the length field of a frame with so few arguments has a zero high byte (R193, R195). -/
theorem commandFrame_bytes (c : Byte) (a : List Byte) (h : a.length ≤ 18) :
    commandFrame c a =
      [0xFD, 0xFC, 0xFB, 0xFA, BitVec.ofNat 8 (2 + a.length), 0x00, c, 0x00] ++ a ++ [0x04, 0x03, 0x02, 0x01] := by
  have hlo : lo8 (BitVec.ofNat 16 (2 + a.length)) = BitVec.ofNat 8 (2 + a.length) := by
    apply BitVec.eq_of_toNat_eq; rw [lo8_toNat, BitVec.toNat_ofNat, BitVec.toNat_ofNat]; omega
  have hhi : hi8 (BitVec.ofNat 16 (2 + a.length)) = 0x00 := by
    apply BitVec.eq_of_toNat_eq; rw [hi8_toNat, BitVec.toNat_ofNat]; exact Nat.div_eq_of_lt (by omega)
  have hlen : (c :: 0x00 :: a).length = 2 + a.length := Nat.add_comm a.length 2
  rw [commandFrame, frameOf, hlen, hlo, hhi]
  simp [headerOf, trailerOf]

theorem send_txLen (g : Stage) (c : Byte) (a : List Byte) (s : State) (h : a.length ≤ 18) :
    (send g c a s).out.txLen.toNat = 12 + a.length := by
  simp only [send_out, txWrite_out, commandFrame_length, BitVec.toNat_ofNat]
  omega

theorem send_txBytes (g : Stage) (c : Byte) (a : List Byte) (s : State) (k : Nat) (h : k < 30) :
    (send g c a s).out.txBytes[k] = ((send g c a s).tx.drop s.tx.length).getD k 0 := by
  rw [send_tx, List.drop_left]
  exact vecOf_getElem txMax _ k h

/-- Each row of format TF is one send, of its own code in its own stage (R194). -/
theorem exec_cmd (k : Cmd) (a : List Byte) (s : State) : exec (k.toInstr a) s = .next (send (stageOf k) k.code a s) := by
  cases k <;> rfl

/-- Settles O30: the ten rows are one operation on their commands. -/
theorem commandRowsSendFrames : Obligations.CommandRowsSendFrames := by
  intro a s ha p hp
  obtain ⟨k, rfl⟩ : ∃ k : Cmd, p = (k.toInstr a, k.code, stageOf k) := by
    simp only [List.mem_cons, List.not_mem_nil, or_false] at hp
    rcases hp with rfl | rfl | rfl | rfl | rfl | rfl | rfl | rfl | rfl | rfl
    exacts [⟨.enterCfg, rfl⟩, ⟨.leaveCfg, rfl⟩, ⟨.setMaxGate, rfl⟩, ⟨.queryCfg, rfl⟩, ⟨.engStart, rfl⟩, ⟨.engStop, rfl⟩,
      ⟨.setSens, rfl⟩, ⟨.fwVersion, rfl⟩, ⟨.factoryReset, rfl⟩, ⟨.restart, rfl⟩]
  refine ⟨_, exec_cmd k a s, ?_, rfl, send_txLen _ _ a s ha, send_txBytes _ _ a s, rfl, rfl, ⟨rfl, rfl, rfl, rfl⟩,
    ⟨rfl, rfl, rfl, rfl⟩, rfl⟩
  rw [send_tx, commandFrame_bytes _ a ha]

/-! ## REQ_ACCEPT -/

theorem latchedArgs_getElem (n : BitVec 5) (a : Vector Byte argSlots) (k : Nat) (hk : k < argSlots) :
    (latchedArgs n a)[k] = if k < n.toNat then a[k] else 0 := by
  split
  · rename_i hn
    rw [latchedArgs, vecOf_getElem, List.getD_eq_getElem?_getD, List.getElem?_take_of_lt hn, Vector.getElem?_toList,
      Vector.getElem?_eq_getElem hk, Option.getD_some]
  · rename_i hn
    exact latchedArgs_above n a k hk (Nat.le_of_not_lt hn)

/-- Settles O36. -/
theorem requestAccepted : Obligations.RequestAccepted := by
  intro c n a s
  exact ⟨acceptRequest c n a s.sample, rfl, rfl, rfl, latchedArgs_getElem n a, rfl, rfl, rfl, rfl, rfl, rfl, rfl, rfl, rfl, rfl,
    rfl, rfl, rfl, rfl, ⟨rfl, rfl, rfl, rfl⟩, rfl, ⟨rfl, rfl, rfl, rfl⟩⟩

/-! ## The wait -/

/-- What a wait observes, in terms of the event port: the two ack labels are the codes 9 and 10 (R40, R200, R203). -/
theorem observedState_eq (t : Transaction) (r : Label) :
    observedState t r =
      if r.code = 9 ∧ r.info = t.awaitCode then .ackedSuccess
      else if r.code = 10 ∧ r.info = t.awaitCode ∧ t.stage ≠ .enter then .ackedFailure
      else t.state := by
  cases r <;> simp [observedState, Label.code, Label.info]

theorem ByteEnd.shows {s t : State} {r : Label} (h : ByteEnd s t r) :
    t.out.evValid = true ∧ t.out.evLabel = r.code ∧ t.out.evInfo = r.info := by
  rw [h.out]; exact ⟨rfl, rfl, rfl⟩

/-- A step that ended with another label than `NO_BYTE` shows it (R49). -/
theorem syncStep_shows (s t : State) (r : Label) (h : syncStep s = .ok (t, r)) (hr : r.code ≠ 0) :
    t.out.evValid = true ∧ t.out.evLabel = r.code ∧ t.out.evInfo = r.info := by
  rcases syncStep_cases s t r h with ⟨-, -, rfl⟩ | ⟨b, rest, -, -, hb⟩
  · exact absurd rfl hr
  · exact hb.shows

theorem not_deadlinePassed_sample (s : State) (h : elapsed s.cfg s.input.now s.txn.tSend < s.cfg.ackTimeoutMs) :
    ¬ deadlinePassed s.sample = true := by
  rw [deadlinePassed_sample]; exact Nat.not_le.mpr h

theorem exec_waitTick_of_deadline (s : State) (h : s.cfg.ackTimeoutMs ≤ elapsed s.cfg s.input.now s.txn.tSend) :
    exec .waitTick s = .next (raiseTimeout s.sample) := by
  simp only [exec, execWaitTick, waitTick, if_pos ((deadlinePassed_sample s).mpr h)]

/-- Settles O37: under the framing invariant the case of the byte answers, its event shows its label, and the wait observes
the label. -/
theorem waitTickRunsByteRow : Obligations.WaitTickRunsByteRow := by
  intro s b i hs hb hd hel
  obtain ⟨rest, hrx⟩ := List.head?_eq_some_iff.mp hb
  have sampled : FramingInv s.sample := framingInv_of_framing s _ rfl hs
  obtain ⟨⟨t, r⟩, hrun⟩ := runByte_ok b s.sample sampled
  have hsync : syncStep s.sample = .ok (t, r) := by rw [syncStep, hrx]; exact hrun
  injection hd with hi
  refine ⟨t, ?_, ?_⟩
  · rw [← hi, exec_byteOp, ← sample_framing, hrun, stepOutcome]
  · obtain ⟨-, hlabel, hinfo⟩ := (runByte_end _ _ _ _ hrun).shows
    have htxn : t.txn = s.txn := (syncStep_part _ t r hsync).txn
    rw [exec_waitTick_of_syncStep s t r (not_deadlinePassed_sample s hel) hsync, observe, observedState_eq, hlabel, hinfo, htxn]

/-- Settles O38: both operations make the step; POLL then drives `frame_ok`, which a wait leaves at 0, and the wait takes in
the label. -/
theorem waitTickStepsAsPoll : Obligations.WaitTickStepsAsPoll := by
  intro s t hel hpoll
  obtain ⟨u, r, hsync, rfl⟩ := execPoll_next s t hpoll
  have htxn : u.txn = s.txn := (syncStep_part _ u r hsync).txn
  have hquiet : u.out.frameOk = false := (syncStep_out _ u r hsync).frameOk
  refine ⟨observedState u.txn r, ?_, fun hnot => ?_⟩
  · rw [exec_waitTick_of_syncStep s u r (not_deadlinePassed_sample s hel) hsync, observe, setFrameOk, ← hquiet]
  · rw [observedState_eq, htxn]
    have hother : ∀ c : BitVec 4, c ≠ 0 → c ∈ [9, 10] → ¬ (r.code = c ∧ r.info = s.txn.awaitCode) := by
      rintro c h0 hc ⟨hcode, hinfo⟩
      obtain ⟨hvalid, hlabel, hev⟩ := syncStep_shows _ u r hsync (hcode ▸ h0)
      exact hnot ⟨hvalid, by rw [setFrameOk_out, hlabel, hcode]; exact hc, hev.trans hinfo⟩
    rw [if_neg (hother 9 (by decide) (by decide)),
      if_neg fun ⟨hcode, hinfo, _⟩ => hother 10 (by decide) (by decide) ⟨hcode, hinfo⟩]

/-- Settles O39. -/
theorem waitTickTimesOut : Obligations.WaitTickTimesOut := by
  intro s h
  exact ⟨_, exec_waitTick_of_deadline s h, rfl, rfl, ⟨rfl, rfl, rfl, rfl⟩, rfl, rfl, ⟨rfl, rfl, rfl, rfl⟩, rfl, rfl, rfl, rfl,
    rfl, rfl, rfl⟩

/-- Settles O40: `txn_state` moves by the timeout or by the observed label, whose code tells what the step did to Sensor
State. -/
theorem waitEndsOnlyOnAwaitedAck : Obligations.WaitEndsOnlyOnAwaitedAck := by
  intro s t hsent h
  rcases execWaitTick_next s t h with ⟨hd, rfl⟩ | ⟨-, u, r, hsync, rfl⟩
  · exact ⟨rfl, .inr (.inl ⟨rfl, (deadlinePassed_sample s).mp hd⟩)⟩
  have htxn : u.txn = s.txn := (syncStep_part _ u r hsync).txn
  have hsensor := syncStep_sensor _ u r hsync
  have hshows := syncStep_shows _ u r hsync
  simp only [observe_txn, observe_out, observe_conn, htxn, observedState_eq, hsent]
  refine ⟨trivial, ?_⟩
  split_ifs with hok hfail
  · obtain ⟨hcode, hinfo⟩ := hok
    obtain ⟨-, hlabel, hev⟩ := hshows (by rw [hcode]; decide)
    have hconn := hsensor.conn_of_frameOk ((frameOk_iff_code r).mpr (.inr hcode))
    exact .inr (.inr (.inl ⟨rfl, hlabel.trans hcode, hev.trans hinfo, by rw [hconn]; rfl, by rw [hconn]⟩))
  · obtain ⟨hcode, hinfo, hstage⟩ := hfail
    obtain ⟨-, hlabel, hev⟩ := hshows (by rw [hcode]; decide)
    have hno : r.frameOk = false := by
      rw [← Bool.not_eq_true, frameOk_iff_code, hcode]; decide
    exact .inr (.inr (.inr ⟨rfl, hlabel.trans hcode, hev.trans hinfo, hstage, hsensor.same_of_not_frameOk hno⟩))
  · exact .inl rfl

/-- Settles O41. -/
theorem timeoutAcrossClockWrap : Obligations.TimeoutAcrossClockWrap := by
  intro s d hd
  simp only [deadlinePassed, decide_eq_true_iff, elapsed_mod, elapsed_add s.cfg _ d hd]

/-! ## The end of a stage -/

theorem exec_stageAdvance (s : State) : exec .stageAdvance s = .next (advance s.sample) := rfl

theorem advance_of_enter_success (s : State) (hg : s.txn.stage = .enter) (hs : s.txn.state = .ackedSuccess) :
    advance s = send .target s.txn.tgtCode (targetArgs s.txn) { s with txn := { s.txn with resEnter := .success } } := by
  simpa [hg, hs] using advance_cases s

theorem advance_of_enter_failed (s : State) (hg : s.txn.stage = .enter) (hs : s.txn.state ≠ .ackedSuccess) :
    advance s = clearTxn (respond false (stageOutcome s.txn.state) .none .none s) := by
  simpa [hg, hs] using advance_cases s

theorem advance_of_target (s : State) (hg : s.txn.stage = .target) :
    advance s = send .leave 0xFE s.cfg.leaveArgs
      { s with txn := { s.txn with resTarget := stageOutcome s.txn.state } } := by
  simpa [hg] using advance_cases s

theorem advance_of_leave (s : State) (hg : s.txn.stage = .leave) :
    advance s = clearTxn (respond (decide (s.txn.resTarget = .success)) s.txn.resEnter s.txn.resTarget
      (stageOutcome s.txn.state) s) := by
  simpa [hg] using advance_cases s

/-- The three ends of a wait, as the statements list them, with the outcome each stands for (R210). -/
theorem stageOutcome_of_mem (p : TxnState × StageOutcome)
    (hp : p ∈ [(TxnState.ackedSuccess, StageOutcome.success), (.ackedFailure, .failure), (.timedOut, .timeout)]) :
    stageOutcome p.1 = p.2 := by
  simp only [List.mem_cons, List.not_mem_nil, or_false] at hp
  rcases hp with rfl | rfl | rfl <;> rfl

/-- A code that a host may request is that of a command sent in stage TARGET (R95, R191). -/
theorem targetCmd_of_mem (c : Byte) (h : c ∈ targetCodes) : ∃ k : Cmd, k.code = c ∧ stageOf k = .target := by
  simp only [targetCodes, List.mem_cons, List.not_mem_nil, or_false] at h
  rcases h with rfl | rfl | rfl | rfl | rfl | rfl | rfl | rfl
  exacts [⟨.setMaxGate, rfl, rfl⟩, ⟨.queryCfg, rfl, rfl⟩, ⟨.engStart, rfl, rfl⟩, ⟨.engStop, rfl, rfl⟩, ⟨.setSens, rfl, rfl⟩,
    ⟨.fwVersion, rfl, rfl⟩, ⟨.factoryReset, rfl, rfl⟩, ⟨.restart, rfl, rfl⟩]

/-- A command's frame decodes to its row (R193). -/
theorem decode_commandFrame (k : Cmd) (a : List Byte) (h : a.length ≤ 18) :
    decode (.cmd (commandFrame k.code a)) = .ok (k.toInstr a) := by
  rw [← encode_cmd]
  exact decode_encode_cmd k a ((Cmd.wf_iff k a).mpr h)

/-- Settles O42: the sends of STAGE_ADVANCE are those of the command rows. -/
theorem stageAdvanceRunsCommandRow : Obligations.StageAdvanceRunsCommandRow := by
  intro s
  refine ⟨fun hs hg hl => ?_, fun p hp hs hg => ?_⟩
  · obtain ⟨k, hcode, hstage⟩ := targetCmd_of_mem _ ((legalRequest_iff _ _ _).mp hl).1
    refine ⟨k.toInstr (targetArgs s.txn), ?_, ?_⟩
    · rw [← hcode]; exact decode_commandFrame k _ (targetArgs_length_le s.txn)
    · rw [exec_cmd, hstage, hcode, exec_stageAdvance, advance_of_enter_success s.sample hg hs]; rfl
  · rw [exec_stageAdvance, advance_of_target s.sample hg, sample_txn, hs, stageOutcome_of_mem p hp]; rfl

/-- Settles O43. -/
theorem failedEnterAbortsRequest : Obligations.FailedEnterAbortsRequest := by
  intro s hg p hp hs
  obtain ⟨hne, hcode⟩ : p.1 ≠ .ackedSuccess ∧ outcomeCode (stageOutcome p.1) = p.2 := by
    simp only [List.mem_cons, List.not_mem_nil, or_false] at hp
    rcases hp with rfl | rfl <;> exact ⟨nofun, rfl⟩
  have hexec : exec .stageAdvance s = .next (clearTxn (respond false (stageOutcome p.1) .none .none s.sample)) := by
    rw [exec_stageAdvance, advance_of_enter_failed s.sample hg (hs ▸ hne), sample_txn, hs]
  exact ⟨_, hexec, rfl, rfl, hcode, rfl, rfl, rfl, rfl, rfl, rfl, rfl, rfl, rfl, ⟨rfl, rfl, rfl, rfl⟩, rfl,
    ⟨rfl, rfl, rfl, rfl⟩⟩

/-- Settles O44. -/
theorem targetEndSendsLeave : Obligations.TargetEndSendsLeave := by
  intro s hg p hp hs
  have hexec : exec .stageAdvance s = .next (send .leave 0xFE s.cfg.leaveArgs
      { s.sample with txn := { s.txn with resTarget := p.2 } }) := by
    rw [exec_stageAdvance, advance_of_target s.sample hg, sample_txn, hs, stageOutcome_of_mem p hp]; rfl
  exact ⟨_, hexec, rfl, rfl, rfl, rfl, rfl, rfl, rfl, rfl, ⟨rfl, rfl, rfl, rfl⟩, rfl, ⟨rfl, rfl, rfl, rfl⟩⟩

/-- Settles O45. -/
theorem leaveEndRespondsTargetResult : Obligations.LeaveEndRespondsTargetResult := by
  intro s hg p hp hs
  have hcode : outcomeCode (stageOutcome p.1) = p.2 := by
    simp only [List.mem_cons, List.not_mem_nil, or_false] at hp
    rcases hp with rfl | rfl | rfl <;> rfl
  have hexec : exec .stageAdvance s = .next (clearTxn (respond (decide (s.txn.resTarget = .success)) s.txn.resEnter
      s.txn.resTarget (stageOutcome p.1) s.sample)) := by
    rw [exec_stageAdvance, advance_of_leave s.sample hg, sample_txn, hs]
  exact ⟨_, hexec, rfl, decide_eq_true_iff, rfl, rfl, hcode, rfl, rfl, rfl, rfl, rfl, rfl, rfl, ⟨rfl, rfl, rfl, rfl⟩, rfl,
    ⟨rfl, rfl, rfl, rfl⟩⟩

/-! ## A request that no byte answers -/

theorem run_succ_of_next (k : Nat) (s t : State) (h : step s = .next t) : run (k + 1) s = run k t := by
  rw [run, h]

/-- What ticks of a wait with no byte leave alone: everything but the clock sample, the inputs and the ports. -/
structure StillWaiting (s t : State) : Prop where
  cfg : t.cfg = s.cfg
  txn : t.txn = s.txn
  framing : t.framing = s.framing
  sensor : SameSensor s t
  rx : t.rx = s.rx
  tx : t.tx = s.tx

theorem StillWaiting.refl (s : State) : StillWaiting s s := ⟨rfl, rfl, rfl, ⟨rfl, rfl, rfl, rfl⟩, rfl, rfl⟩

theorem StillWaiting.trans {s t u : State} (h : StillWaiting s t) (k : StillWaiting t u) : StillWaiting s u :=
  ⟨k.cfg.trans h.cfg, k.txn.trans h.txn, k.framing.trans h.framing, h.sensor.trans k.sensor, k.rx.trans h.rx, k.tx.trans h.tx⟩

/-- A tick's input that neither resets nor brings a byte, before the deadline of a send at this time. -/
abbrev IdleWait (cfg : Config) (tSend : Nat) (w : TickInput) : Prop :=
  w.rst = false ∧ w.arrivals = [] ∧ elapsed cfg w.now tSend < cfg.ackTimeoutMs

/-- A tick of a wait with no byte, before the deadline (R111, R200). -/
theorem step_idleWait (s : State) (w : TickInput) (later : List TickInput) (hs : s.txn.state = .sent) (hrx : s.rx = [])
    (hin : s.inputs = w :: later) (hw : IdleWait s.cfg s.txn.tSend w) :
    step s = .next s.sample ∧ StillWaiting s s.sample ∧ s.sample.inputs = later := by
  obtain ⟨hrst, harr, hel⟩ := hw
  have hinput := input_cons s w later hin
  have hnone : s.input.arrivals = [] := by rw [hinput, harr]
  obtain ⟨-, hframing, hsensor, htxn, ⟨hcfg, -, htail, -⟩, hempty, htx, -, -, -, hwait⟩ := noByteChangesNothing s hrx hnone
  refine ⟨?_, ⟨hcfg, htxn, hframing, hsensor, hempty.trans hrx.symm, htx⟩, by rw [htail, hin, List.tail_cons]⟩
  rw [step_of_sent s hs (by rw [hinput, hrst])]
  exact hwait (by rw [hinput, elapsed_mod]; exact hel)

/-- Any number of such ticks (R200, R218). -/
theorem run_idleWaits (waits later : List TickInput) (s : State) (hs : s.txn.state = .sent) (hrx : s.rx = [])
    (hin : s.inputs = waits ++ later) (hw : ∀ w ∈ waits, IdleWait s.cfg s.txn.tSend w) :
    ∃ t, run waits.length s = .next t ∧ StillWaiting s t ∧ t.inputs = later := by
  induction waits generalizing s with
  | nil => exact ⟨s, rfl, .refl s, hin⟩
  | cons w waits ih =>
    obtain ⟨hstep, hstill, hrest⟩ := step_idleWait s w _ hs hrx hin (hw w List.mem_cons_self)
    obtain ⟨t, hrun, ht, hlater⟩ := ih s.sample hs (hstill.rx.trans hrx) hrest fun v hv => hw v (List.mem_cons_of_mem w hv)
    exact ⟨t, (run_succ_of_next _ s _ hstep).trans hrun, hstill.trans ht, hlater⟩

/-- The tick of a wait at or past its deadline (R201). -/
theorem step_of_deadline (s : State) (i : TickInput) (later : List TickInput) (hs : s.txn.state = .sent)
    (hin : s.inputs = i :: later) (hrst : i.rst = false) (hd : s.cfg.ackTimeoutMs ≤ elapsed s.cfg i.now s.txn.tSend) :
    step s = .next (raiseTimeout s.sample) := by
  have hinput := input_cons s i later hin
  rw [step_of_sent s hs (by rw [hinput, hrst])]
  exact exec_waitTick_of_deadline s (by rw [hinput, elapsed_mod]; exact hd)

/-- The tick after the timeout of stage ENTER (R211). -/
theorem step_of_enter_timedOut (s : State) (i : TickInput) (later : List TickInput) (hs : s.txn.state = .timedOut)
    (hg : s.txn.stage = .enter) (hin : s.inputs = i :: later) (hrst : i.rst = false) :
    step s = .next (clearTxn (respond false .timeout .none .none s.sample)) := by
  rw [step_of_timedOut s hs (by rw [input_cons s i later hin, hrst]),
    advance_of_enter_failed s.sample hg (by rw [sample_txn, hs]; nofun), sample_txn, hs, stageOutcome]

/-- From the wait of stage ENTER on: the waits, the timeout, and the response (R211, R218). -/
theorem run_enter_unanswered (waits later : List TickInput) (dead last : TickInput) (s : State) (hs : s.txn.state = .sent)
    (hg : s.txn.stage = .enter) (hrx : s.rx = []) (hin : s.inputs = waits ++ dead :: last :: later)
    (hw : ∀ w ∈ waits, IdleWait s.cfg s.txn.tSend w) (hdr : dead.rst = false)
    (hd : s.cfg.ackTimeoutMs ≤ elapsed s.cfg dead.now s.txn.tSend) (hlr : last.rst = false) :
    ∃ t, StillWaiting s t ∧ run (waits.length + 2) s =
      .next (clearTxn (respond false .timeout .none .none (raiseTimeout t.sample).sample)) := by
  obtain ⟨t, hrun, hstill, hnext⟩ := run_idleWaits waits _ s hs hrx hin hw
  have htimeout : step t = .next (raiseTimeout t.sample) :=
    step_of_deadline t dead _ (by rw [hstill.txn, hs]) hnext hdr (by rw [hstill.cfg, hstill.txn]; exact hd)
  have hstage : (raiseTimeout t.sample).txn.stage = .enter := (congrArg Transaction.stage hstill.txn).trans hg
  have hcoming : (raiseTimeout t.sample).inputs = last :: later := congrArg List.tail hnext
  have hend := step_of_enter_timedOut (raiseTimeout t.sample) last later rfl hstage hcoming hlr
  exact ⟨t, hstill, run_succ_of_step _ s _ _ (run_succ_of_step _ s t _ hrun htimeout) hend⟩

/-- Settles O60: the accept tick, then the unanswered stage ENTER. -/
theorem unansweredRequestTimesOut : Obligations.UnansweredRequestTimesOut := by
  intro s req dead last waits later hclear hrx hin hrst hvalid hlegal harr hwaits hdr hdead hlr
  have hinput := input_cons s req _ hin
  have haccept : step s = .next (acceptRequest s.input.reqCode s.input.reqNargs s.input.reqArgs s.sample) := by
    refine step_of_request s (by rw [hclear]; rfl) ?_ ?_ ?_ <;> rw [hinput] <;> assumption
  have hnow : s.input.now = req.now % 2 ^ s.cfg.clockW := by rw [hinput]
  have helapsed (ms : Nat) : elapsed s.cfg ms s.input.now = elapsed s.cfg ms req.now := by rw [hnow, elapsed_mod_right]
  have hempty : s.sample.rx = [] := by rw [sample_rx, hrx, hinput, harr]; rfl
  have hcoming : s.sample.inputs = waits ++ dead :: last :: later := congrArg List.tail hin
  obtain ⟨t, hstill, hrun⟩ := run_enter_unanswered waits later dead last
    (acceptRequest s.input.reqCode s.input.reqNargs s.input.reqArgs s.sample) rfl rfl hempty hcoming
    (fun w hw => by simpa [IdleWait, acceptRequest, helapsed] using hwaits w hw) hdr
    (by simpa [acceptRequest, helapsed] using hdead) hlr
  exact ⟨_, (run_succ_of_next _ s _ haccept).trans hrun, rfl, rfl, rfl, rfl, rfl, hstill.tx, hstill.framing, hstill.sensor,
    hclear.symm⟩

end Sys2Proof.Machine

/-! PROOFS. The host's side of a tick: which operation its inputs select, the tick that only takes them in, and the status
outputs. -/
namespace Sys2Proof.Machine
open Sys2Proof

/-! ## The lines of R240 -/

theorem decodeTick_of_rst (max : ArgsMax) (txn : TxnState) (t : TickInput) (hr : t.rst = true) :
    decodeTick max txn t = .reset := if_pos hr

theorem decodeTick_of_request (max : ArgsMax) (t : TickInput) (hr : t.rst = false) (hv : t.reqValid = true)
    (hl : legalRequest max t.reqCode t.reqNargs = true) :
    decodeTick max .idle t = .reqAccept t.reqCode t.reqNargs t.reqArgs := by
  simp only [decodeTick, hr, hv, hl, Bool.and_self, Bool.false_eq_true, if_false, if_true]

/-- In `IDLE` without a legal request the port `poll` selects between POLL and NOP. -/
theorem decodeTick_of_no_request (max : ArgsMax) (t : TickInput) (hr : t.rst = false)
    (hn : (t.reqValid && legalRequest max t.reqCode t.reqNargs) = false) :
    decodeTick max .idle t = if t.poll then .poll else .nop := by
  simp only [decodeTick, hr, hn, Bool.false_eq_true, if_false]

/-- The three ends of a wait select the controller's next stage (R210). -/
theorem decodeTick_of_ended (max : ArgsMax) (txn : TxnState) (t : TickInput) (hr : t.rst = false)
    (hs : txn ∈ [TxnState.ackedSuccess, .ackedFailure, .timedOut]) : decodeTick max txn t = .stageAdvance := by
  simp only [List.mem_cons, List.not_mem_nil, or_false] at hs
  rcases hs with rfl | rfl | rfl <;> simp only [decodeTick, hr, Bool.false_eq_true, if_false]

/-- A tick is its operation (R7, R240). -/
theorem step_of_decodeTick (s : State) (op : TickOp) (h : decodeTick s.cfg.argsMax s.txn.state s.input = op) :
    step s = exec op.toInstr s := by
  rw [step, fetchOp, h]

/-- A request is presented and legal, by the codes and the bound of R191. -/
theorem presentsRequest_iff (max : ArgsMax) (t : TickInput) :
    (t.reqValid && legalRequest max t.reqCode t.reqNargs) = true ↔
      t.reqValid = true ∧ t.reqCode ∈ targetCodes ∧ t.reqNargs.toNat ≤ max.val := by
  rw [Bool.and_eq_true, legalRequest_iff]

/-- In `IDLE` a tick accepts a legal request, else polls or passes (R240). -/
theorem step_of_idle (s : State) (hr : s.input.rst = false) (hi : s.txn.state = .idle) :
    (s.input.reqValid = true ∧ s.input.reqCode ∈ targetCodes ∧ s.input.reqNargs.toNat ≤ s.cfg.argsMax.val →
      step s = exec (.reqAccept s.input.reqCode s.input.reqNargs s.input.reqArgs) s) ∧
    (¬(s.input.reqValid = true ∧ s.input.reqCode ∈ targetCodes ∧ s.input.reqNargs.toNat ≤ s.cfg.argsMax.val) →
      (s.input.poll = true → step s = exec .poll s) ∧ (s.input.poll = false → step s = exec .nop s)) := by
  rw [← presentsRequest_iff]
  refine ⟨fun hq => ?_, fun hq => ?_⟩
  · obtain ⟨hv, hl⟩ := Bool.and_eq_true_iff.mp hq
    exact step_of_decodeTick s _ (hi ▸ decodeTick_of_request s.cfg.argsMax s.input hr hv hl)
  · have hop := decodeTick_of_no_request s.cfg.argsMax s.input hr (Bool.eq_false_iff.mpr hq)
    rw [← hi] at hop
    exact ⟨fun hp => step_of_decodeTick s .poll (hop.trans (if_pos hp)),
      fun hp => step_of_decodeTick s .nop (hop.trans (if_neg (Bool.eq_false_iff.mp hp)))⟩

/-- Settles O8: the inputs of each line select its operation, and a tick runs what they select. -/
theorem stepRunsSelectedOperation : Obligations.StepRunsSelectedOperation := by
  intro s
  refine ⟨fun i hd => ?_, fun hr => ?_, step_of_idle s, fun hr hs => step_of_sent s hs hr, fun hr hs => ?_⟩
  · injection hd with hd
    rw [step, fetchOp, hd]
  · exact step_of_decodeTick s .reset (decodeTick_of_rst _ _ _ hr)
  · exact step_of_decodeTick s .stageAdvance (decodeTick_of_ended _ _ _ hr hs)

/-! ## NOP -/

/-- Settles O33: NOP is the sample and nothing else, and in `IDLE` without a reset the sample drives `req_ready`. -/
theorem nopOnlyTakesInputs : Obligations.NopOnlyTakesInputs := by
  intro s hi hr
  have hready : (!s.input.rst && decide (s.txn.state = .idle)) = true := by simp [hi, hr]
  refine ⟨rfl, rfl, ⟨rfl, rfl, rfl, rfl⟩, rfl, ⟨rfl, rfl, rfl, rfl⟩, rfl, rfl, ?_⟩
  rw [sample_out, hready]

/-! ## The status outputs -/

theorem moving_iff (s : State) : moving s = true ↔ s.tel.tgtType.toNat % 2 = 1 := by
  rw [moving, ← BitVec.testBit_toNat, Nat.testBit_zero, decide_eq_true_iff]

theorem stationary_iff (s : State) : stationary s = true ↔ s.tel.tgtType.toNat / 2 % 2 = 1 := by
  rw [stationary, ← BitVec.testBit_toNat, Nat.testBit_eq_decide_div_mod_eq, decide_eq_true_iff, Nat.pow_one]

/-- A target is present when either of the two bits is set (R250). -/
theorem presence_iff (s : State) : presence s = true ↔ s.tel.tgtType.toNat % 4 ≠ 0 := by
  rw [presence, Bool.or_eq_true, moving_iff, stationary_iff]
  omega

/-- Settles O56. -/
theorem presenceFromTargetBits : Obligations.PresenceFromTargetBits :=
  ⟨fun s => ⟨moving_iff s, stationary_iff s, presence_iff s⟩, rfl, rfl, rfl⟩

/-- RESET shows no event (R290), so a tick that shows one is no RESET. -/
theorem rst_of_event (s t : State) (h : step s = .next t) (hev : t.out.evValid = true) : s.input.rst = false := by
  cases step_kind s t h with
  | reset hr h => rw [h] at hev; cases hev
  | still hr h hev => exact hr
  | sync hr u r hu h hev => exact hr

/-- A tick that shows a successful parse has stamped connectivity with its own clock sample (R32, R49). -/
theorem conn_of_parsed (s t : State) (h : step s = .next t) (hev : t.out.evValid = true)
    (hok : t.out.evLabel = 5 ∨ t.out.evLabel = 9) : t.conn.valid = true ∧ t.conn.ts = t.now := by
  obtain ⟨hts, hvalid⟩ := (connectivityStampedOnlyOnSuccess s t h (rst_of_event s t h hev)).1 ⟨hev, hok⟩
  obtain ⟨-, hnow, -, -⟩ := step_nextTick s t h
  exact ⟨hvalid, hts.trans hnow.symm⟩

/-- A number of milliseconds after the stamp that the clock's width can tell is compared with the window as it is, across
any wrap (R252, R256(e)). -/
theorem connected_after (s : State) (w : StaleWindow s.cfg) (d : Nat) (hv : s.conn.valid = true)
    (hd : d < 2 ^ s.cfg.clockW) : connected s w ((s.conn.ts + d) % 2 ^ s.cfg.clockW) = true ↔ d < w.val := by
  rw [connected_iff, elapsed_mod, elapsed_add _ _ _ hd]
  exact and_iff_right hv

/-- Settles O57: the tick of the parse stamps connectivity, and a legal window ends before the clock has wrapped. -/
theorem connectedForTheStalenessWindow : Obligations.ConnectedForTheStalenessWindow := by
  refine ⟨fun s t w h hev hok => ?_, fun s w now hv => ?_, rfl⟩
  · obtain ⟨hvalid, hts⟩ := conn_of_parsed s t h hev hok
    have hwindow := connected_after t w (hv := hvalid)
    rw [hts] at hwindow
    refine ⟨hwindow, ?_⟩
    rw [← Bool.not_eq_true, hwindow w.val w.property]
    exact Nat.lt_irrefl w.val
  · rw [connected, hv, Bool.false_and]

end Sys2Proof.Machine

/-! PROOFS. The errors of R260 that end a synchronizer step: their labels, and what a tick that shows one did. -/
namespace Sys2Proof.Machine
open Sys2Proof

/-- The codes of the errors of R260 that end a step (R40, D12): OVERRUN, the two length mismatches, the two unknown shapes and
the status failure. -/
abbrev stepErrorCodes : List (BitVec 4) := [4, 7, 8, 10, 11, 12]

/-- The label of an error that ends a step is above `ACCUMULATING`, so that the framing registers were reset, and is none of
the two successful ones (R40, R41, R260). -/
theorem errorCode_resets_not_frameOk (r : Label) (he : r.code ∈ stepErrorCodes) :
    4 ≤ r.code.toNat ∧ r.frameOk = false := by
  cases r <;> simp [stepErrorCodes, Label.code, Label.frameOk] at he ⊢

/-- A step that consumed a byte and ended with an error reset the framing registers and wrote no Sensor State (R261). -/
theorem ByteEnd.error_effect {s t : State} {r : Label} (h : ByteEnd s t r) (he : r.code ∈ stepErrorCodes) :
    SameSensor s t ∧ t.framing.sync = .idle ∧ t.framing.bufLen = 0 ∧ t.out.rxReady = true := by
  obtain ⟨hend, hno⟩ := errorCode_resets_not_frameOk r he
  obtain ⟨hidle, hlen⟩ := h.reset hend
  exact ⟨h.sensor.same_of_not_frameOk hno, hidle, hlen, by rw [h.out]⟩

/-- A step that shows an event where the port was quiet consumed a byte and shows its own label (R49, R111). -/
theorem syncStep_byteEnd (s t : State) (r : Label) (h : syncStep s = .ok (t, r)) (hq : s.out.evValid = false)
    (hev : t.out.evValid = true) : ByteEnd s t r := by
  rcases syncStep_cases s t r h with ⟨-, rfl, -⟩ | ⟨b, rest, -, -, hb⟩
  · rw [hq] at hev; cases hev
  · exact hb

/-- `frame_ok` is 0 in a tick that shows the label of an error: only a POLL that parsed a frame raises it (R41, R48). -/
theorem frameOk_of_error (s t : State) (h : step s = .next t) (he : t.out.evLabel ∈ stepErrorCodes) :
    t.out.frameOk = false := by
  rw [← Bool.not_eq_true, frameOkOnlyForParsedFrames s t h]
  rintro ⟨-, -, hok | hok⟩
  · rw [hok] at he; exact absurd he (by decide)
  · rw [hok] at he; exact absurd he (by decide)

/-- Settles O49: RESET shows no event and the timeout another label, so the event is that of the tick's synchronizer step,
whose registers the rest of the tick leaves alone. -/
theorem stepErrorsLeaveSensorState : Obligations.StepErrorsLeaveSensorState := by
  intro s t h hev he
  have hframeOk := frameOk_of_error s t h he
  cases step_kind s t h with
  | reset hr h => rw [h] at hev; cases hev
  | still hr h hquiet =>
    rcases hquiet with hquiet | hquiet
    · rw [hquiet] at hev; cases hev
    · rw [hquiet] at he; exact absurd he (by decide)
  | sync hr u r hu h hshown =>
    rw [hshown.1] at hev
    have hbyte := syncStep_byteEnd _ u r hu rfl hev
    have hcode : r.code ∈ stepErrorCodes := by rwa [hshown.2, hbyte.shows.2.1] at he
    obtain ⟨hsensor, hidle, hlen, hready⟩ := hbyte.error_effect hcode
    rw [h.framing, h.rxReady]
    exact ⟨hsensor.trans h.sensor, hidle, hlen, hready, hframeOk⟩

end Sys2Proof.Machine

/-! PROOFS. RESET, and the liveness of a request (R306): a request that a tick accepted passes through waits and stage ends,
each of which is over by a tick that the environment alone fixes. -/
namespace Sys2Proof.Machine
open Sys2Proof

/-! ## RESET -/

/-- Settles O31. -/
theorem resetWritesEveryRegister : Obligations.ResetWritesEveryRegister := by
  intro s
  exact ⟨{ resetRegs s.sample with out := Outputs.quiet }, rfl, rfl, rfl, rfl, fun _ => rfl, rfl, rfl, rfl, rfl, rfl, rfl, rfl,
    ⟨rfl, rfl, rfl, rfl⟩, rfl, rfl, rfl, rfl, rfl, rfl⟩

/-! ## A request on its way to its response -/

/-- The tick presented the response and cleared the transaction registers (R211, R213, R214). -/
def Responded (t : State) : Prop := t.out.rspValid = true ∧ t.txn = Transaction.cleared

/-- The tick left the request in progress and presented no response (R217). -/
def InProgress (t : State) : Prop := t.txn.state ≠ .idle ∧ t.out.rspValid = false

/-- Among the ticks whose inputs are given there is one that responds, and the request is in progress until then. -/
def RequestEnds (s : State) : Prop :=
  ∃ n t, n < s.inputs.length ∧ run (n + 1) s = .next t ∧ Responded t ∧
    ∀ j, j < n → ∃ u, run (j + 1) s = .next u ∧ InProgress u

theorem requestEnds_of_responded (s t : State) (hin : s.inputs ≠ []) (h : step s = .next t) (ht : Responded t) :
    RequestEnds s :=
  ⟨0, t, List.length_pos_iff.mpr hin, run_succ_of_next 0 s t h, ht, nofun⟩

theorem requestEnds_of_inProgress (s t : State) (h : step s = .next t) (ht : InProgress t) (hends : RequestEnds t) :
    RequestEnds s := by
  obtain ⟨n, u, hn, hrun, hu, hbefore⟩ := hends
  obtain ⟨-, -, htail, -⟩ := step_nextTick s t h
  refine ⟨n + 1, u, ?_, (run_succ_of_next _ s t h).trans hrun, hu, fun j hj => ?_⟩
  · rw [htail, List.length_tail] at hn; omega
  · rw [run_succ_of_next j s t h]
    cases j with
    | zero => exact ⟨t, rfl, ht⟩
    | succ j => exact hbefore j (Nat.lt_of_succ_lt_succ hj)

/-- With enough of the environment's moves given, every request that is in this phase at its tick `k` ends. How many are
enough depends on the environment and the phase, not on the state: not on the bytes received. -/
def PhaseEnds (cfg : Config) (env : Nat → TickInput) (k : Nat) (phase : Transaction → Prop) : Prop :=
  ∃ bound, ∀ m, bound ≤ m → ∀ s, FramingInv s → s.cfg = cfg → phase s.txn →
    s.inputs = ((List.range m).map env).drop k → RequestEnds s

/-- The inputs that the environment has at its tick `k`. -/
theorem drop_moves (env : Nat → TickInput) (k m : Nat) (h : k < m) :
    ((List.range m).map env).drop k = env k :: ((List.range m).map env).drop (k + 1) := by
  rw [List.drop_eq_getElem_cons (by simpa using h)]
  simp

/-- One tick of a phase: it responds, or the request goes on in a phase that ends. -/
theorem phaseEnds_of_step {cfg : Config} {env : Nat → TickInput} {k : Nat} {phase next : Transaction → Prop}
    (hstep : ∀ s t, phase s.txn → s.cfg = cfg → s.input = { env k with now := (env k).now % 2 ^ cfg.clockW } →
      step s = .next t → Responded t ∨ InProgress t ∧ next t.txn)
    (hnext : PhaseEnds cfg env (k + 1) next) : PhaseEnds cfg env k phase := by
  obtain ⟨bound, hbound⟩ := hnext
  refine ⟨max bound (k + 1), fun m hm s hs hcfg hphase hin => ?_⟩
  rw [drop_moves env k m (by omega)] at hin
  obtain ⟨t, ht⟩ := safeTick_of_framingInv s hs
  obtain ⟨htcfg, -, htail, -⟩ := step_nextTick s t ht
  rcases hstep s t hphase hcfg (by rw [input_cons s _ _ hin, hcfg]) ht with hresp | ⟨hprog, hgoes⟩
  · exact requestEnds_of_responded s t (by rw [hin]; nofun) ht hresp
  · refine requestEnds_of_inProgress s t ht hprog ?_
    exact hbound m (by omega) t (framingInvKept s t hs ht) (htcfg.trans hcfg) hgoes (by rw [htail, hin, List.tail_cons])

/-- A phase that may go on in two ways. -/
theorem PhaseEnds.or {cfg : Config} {env : Nat → TickInput} {k : Nat} {p q : Transaction → Prop}
    (hp : PhaseEnds cfg env k p) (hq : PhaseEnds cfg env k q) : PhaseEnds cfg env k fun t => p t ∨ q t := by
  obtain ⟨b, hb⟩ := hp
  obtain ⟨c, hc⟩ := hq
  refine ⟨max b c, fun m hm s hs hcfg hphase hin => ?_⟩
  rcases hphase with h | h
  · exact hb m (by omega) s hs hcfg h hin
  · exact hc m (by omega) s hs hcfg h hin

theorem phaseEnds_of_false {cfg : Config} {env : Nat → TickInput} {k : Nat} {phase : Transaction → Prop}
    (h : ∀ t, ¬ phase t) : PhaseEnds cfg env k phase :=
  ⟨0, fun _ _ s _ _ hphase _ => absurd hphase (h s.txn)⟩

/-! ## The phases -/

/-- The wait of a stage has ended (R210). -/
def StageEnded (g : Stage) (t : Transaction) : Prop := t.stage = g ∧ t.state ≠ .idle ∧ t.state ≠ .sent

/-- The wait of a stage whose command was sent at this sample of the clock (R194). -/
def Waiting (cfg : Config) (g : Stage) (sent : Nat) (t : Transaction) : Prop :=
  t.stage = g ∧ t.state = .sent ∧ t.tSend % 2 ^ cfg.clockW = sent % 2 ^ cfg.clockW

/-- A synchronizer step does not drive the response port (R47). -/
theorem syncStep_rspValid (s t : State) (r : Label) (h : syncStep s = .ok (t, r)) : t.out.rspValid = s.out.rspValid := by
  rcases syncStep_cases s t r h with ⟨-, rfl, -⟩ | ⟨b, rest, -, -, hb⟩
  · rfl
  · rw [hb.out]

/-- A tick of a wait presents no response; it ends the wait, or the deadline had not passed and the wait goes on (R200). -/
theorem step_of_waiting {cfg : Config} {g : Stage} {sent : Nat} (s t : State) (hcfg : s.cfg = cfg)
    (hw : Waiting cfg g sent s.txn) (hr : s.input.rst = false) (h : step s = .next t) :
    InProgress t ∧ (StageEnded g t.txn ∨
      elapsed cfg s.input.now s.txn.tSend < cfg.ackTimeoutMs ∧ Waiting cfg g sent t.txn) := by
  obtain ⟨hstage, hsent, hsend⟩ := hw
  rw [step_of_sent s hsent hr] at h
  rcases execWaitTick_next s t h with ⟨-, rfl⟩ | ⟨hd, u, r, hu, rfl⟩
  · exact ⟨⟨nofun, rfl⟩, .inl ⟨hstage, nofun, nofun⟩⟩
  have htxn : u.txn = s.txn := (syncStep_part _ u r hu).txn
  have hquiet : u.out.rspValid = false := syncStep_rspValid _ u r hu
  simp only [InProgress, StageEnded, Waiting, observe_txn, observe_out, htxn]
  rcases observedState_cases s.txn r with ho | ho | ⟨ho, -⟩ <;> rw [ho]
  · rw [Bool.eq_false_iff, Ne, deadlinePassed_sample, Nat.not_le, hcfg] at hd
    exact ⟨⟨by rw [hsent]; nofun, hquiet⟩, .inr ⟨hd, hstage, hsent, hsend⟩⟩
  · exact ⟨⟨nofun, hquiet⟩, .inl ⟨hstage, nofun, nofun⟩⟩
  · exact ⟨⟨nofun, hquiet⟩, .inl ⟨hstage, nofun, nofun⟩⟩

/-- The tick of a STAGE_ADVANCE (R240). -/
theorem step_of_stageEnded {g : Stage} (s t : State) (he : StageEnded g s.txn) (hr : s.input.rst = false)
    (h : step s = .next t) : t = advance s.sample := by
  obtain ⟨-, hidle, hsent⟩ := he
  have hended : s.txn.state ∈ [TxnState.ackedSuccess, .ackedFailure, .timedOut] := by
    cases hst : s.txn.state with
    | idle => exact absurd hst hidle
    | sent => exact absurd hst hsent
    | _ => decide
  rw [step_of_decodeTick s _ (decodeTick_of_ended _ _ _ hr hended), TickOp.toInstr, exec_stageAdvance] at h
  injection h with h
  exact h.symm

/-- The stage that follows a stage, if its command is sent at all (R211 to R213). -/
def stageAfter : Stage → Option Stage
  | .enter => some .target
  | .target => some .leave
  | .leave => none

/-- The end of a stage responds or sends the command of the next one, at this tick's sample of the clock. -/
theorem advance_of_stageEnded {g : Stage} (s : State) (hg : s.txn.stage = g) (hq : s.out.rspValid = false) :
    Responded (advance s) ∨
      InProgress (advance s) ∧ ∃ g', stageAfter g = some g' ∧ Waiting s.cfg g' s.now (advance s).txn := by
  subst hg
  rcases advance_cases s with ⟨hg, -, h⟩ | ⟨-, -, h⟩ | ⟨hg, h⟩ | ⟨-, h⟩ <;> rw [h]
  · exact .inr ⟨⟨nofun, hq⟩, .target, by rw [hg]; rfl, rfl, rfl, rfl⟩
  · exact .inl ⟨rfl, rfl⟩
  · exact .inr ⟨⟨nofun, hq⟩, .leave, by rw [hg]; rfl, rfl, rfl, rfl⟩
  · exact .inl ⟨rfl, rfl⟩

/-! ## The fair clock -/

/-- `time` counts the milliseconds of a fair clock (R306). -/
structure FairTime (cfg : Config) (env : Nat → TickInput) (time : Nat → Nat) : Prop where
  mono : Monotone time
  sample : ∀ k, (env k).now % 2 ^ cfg.clockW = time k % 2 ^ cfg.clockW
  unbounded : ∀ bound, ∃ k, bound ≤ time k
  no_outrun : ∀ j k, j ≤ k → time k < time j + cfg.ackTimeoutMs → time (k + 1) < time j + 2 ^ cfg.clockW

theorem fairClock_iff (cfg : Config) (env : Nat → TickInput) : FairClock cfg env ↔ ∃ time, FairTime cfg env time :=
  exists_congr fun _ => ⟨fun ⟨h, hs, hu, hn⟩ => ⟨monotone_nat_of_le_succ h, hs, hu, hn⟩,
    fun h => ⟨fun k => h.mono (Nat.le_succ k), h.sample, h.unbounded, h.no_outrun⟩⟩

/-- The elapsed time between two samples that are less than the clock's width apart is what passed (R202). -/
theorem elapsed_eq_sub (cfg : Config) {now t later earlier : Nat} (hnow : now % 2 ^ cfg.clockW = later % 2 ^ cfg.clockW)
    (ht : t % 2 ^ cfg.clockW = earlier % 2 ^ cfg.clockW) (hle : earlier ≤ later) (hlt : later < earlier + 2 ^ cfg.clockW) :
    elapsed cfg now t = later - earlier := by
  rw [← elapsed_mod, ← elapsed_mod_right, hnow, ht, elapsed_mod, elapsed_mod_right]
  obtain ⟨d, rfl⟩ := Nat.exists_eq_add_of_le hle
  rw [elapsed_add cfg earlier d (by omega), Nat.add_sub_cancel_left]

section
variable {cfg : Config} {env : Nat → TickInput} {time : Nat → Nat} (fair : FairTime cfg env time)
  (norst : ∀ k, (env k).rst = false)
include fair

/-- While the clock has not wrapped since the send at tick `j`, fewer milliseconds than the timeout seem to have passed only
if they have. A timeout of 0 has passed at once, whatever the clock does. -/
theorem not_passed_of_elapsed {g : Stage} {j k : Nat} (hjk : j ≤ k)
    (hwrap : 0 < cfg.ackTimeoutMs → time k < time j + 2 ^ cfg.clockW) (s : State) (hw : Waiting cfg g (time j) s.txn)
    (hin : s.input = { env k with now := (env k).now % 2 ^ cfg.clockW })
    (hel : elapsed cfg s.input.now s.txn.tSend < cfg.ackTimeoutMs) : time k < time j + cfg.ackTimeoutMs := by
  obtain ⟨-, -, hsend⟩ := hw
  have hle := fair.mono hjk
  rw [hin, elapsed_mod, elapsed_eq_sub cfg (fair.sample k) hsend hle (hwrap (Nat.zero_lt_of_lt hel))] at hel
  omega

include norst

/-- One tick of a wait: it ends, or its deadline has not passed and it goes on (R200). -/
theorem waiting_phaseEnds_succ {g : Stage} (hended : ∀ k, PhaseEnds cfg env k (StageEnded g)) {j k : Nat} (hjk : j ≤ k)
    (hwrap : 0 < cfg.ackTimeoutMs → time k < time j + 2 ^ cfg.clockW)
    (hnext : time k < time j + cfg.ackTimeoutMs → PhaseEnds cfg env (k + 1) (Waiting cfg g (time j))) :
    PhaseEnds cfg env k (Waiting cfg g (time j)) := by
  have hgoes : PhaseEnds cfg env (k + 1) fun t => time k < time j + cfg.ackTimeoutMs ∧ Waiting cfg g (time j) t := by
    by_cases hd : time k < time j + cfg.ackTimeoutMs
    · simpa only [hd, true_and] using hnext hd
    · exact phaseEnds_of_false fun _ h => hd h.1
  refine phaseEnds_of_step (fun s t hw hcfg hin h => ?_) ((hended (k + 1)).or hgoes)
  obtain ⟨hprog, hphase⟩ := step_of_waiting s t hcfg hw (by rw [hin]; exact norst k) h
  exact .inr ⟨hprog, hphase.imp_right fun ⟨hel, hw'⟩ => ⟨not_passed_of_elapsed fair hjk hwrap s hw hin hel, hw'⟩⟩

/-- A wait for a command sent at tick `j` ends, by induction on the ticks `left` to one at which its deadline has passed. As
long as it goes on the clock has not wrapped since the send. -/
theorem waiting_phaseEnds_of_deadline {g : Stage} (hended : ∀ k, PhaseEnds cfg env k (StageEnded g)) {j last : Nat}
    (hlast : time j + cfg.ackTimeoutMs ≤ time last) (left k : Nat) (hleft : last ≤ k + left) (hjk : j ≤ k)
    (hwrap : 0 < cfg.ackTimeoutMs → time k < time j + 2 ^ cfg.clockW) :
    PhaseEnds cfg env k (Waiting cfg g (time j)) := by
  induction left generalizing k with
  | zero =>
    have hpassed := hlast.trans (fair.mono hleft)
    exact waiting_phaseEnds_succ fair norst hended hjk hwrap fun hd => absurd hd (Nat.not_lt.mpr hpassed)
  | succ left ih =>
    refine waiting_phaseEnds_succ fair norst hended hjk hwrap fun hd => ?_
    exact ih (k + 1) (by omega) (by omega) fun _ => fair.no_outrun j k hjk hd

/-- A fair clock reaches the deadline of every wait (R306). -/
theorem waiting_phaseEnds {g : Stage} (hended : ∀ k, PhaseEnds cfg env k (StageEnded g)) (j : Nat) :
    PhaseEnds cfg env (j + 1) (Waiting cfg g (time j)) := by
  obtain ⟨last, hlast⟩ := fair.unbounded (time j + cfg.ackTimeoutMs)
  refine waiting_phaseEnds_of_deadline fair norst hended hlast last (j + 1) (by omega) (by omega) fun hpos => ?_
  exact fair.no_outrun j j (Nat.le_refl j) (by omega)

/-- A stage that has ended is followed by the response or by the wait of the next stage (R211 to R213). -/
theorem stageEnded_phaseEnds_of_next {g : Stage}
    (hnext : ∀ g', stageAfter g = some g' → ∀ k, PhaseEnds cfg env k (StageEnded g')) (k : Nat) :
    PhaseEnds cfg env k (StageEnded g) := by
  have hgoes : PhaseEnds cfg env (k + 1) fun t => ∃ g', stageAfter g = some g' ∧ Waiting cfg g' (time k) t := by
    cases hg : stageAfter g with
    | none => exact phaseEnds_of_false fun _ ⟨_, h, _⟩ => nomatch h
    | some g' => simpa using waiting_phaseEnds fair norst (hnext g' hg) k
  refine phaseEnds_of_step (fun s t he hcfg hin h => ?_) hgoes
  obtain rfl := step_of_stageEnded s t he (by rw [hin]; exact norst k) h
  have hnow : s.sample.now % 2 ^ cfg.clockW = time k % 2 ^ cfg.clockW := by
    rw [sample_now, hin, Nat.mod_mod, fair.sample]
  simpa only [sample_cfg, hcfg, Waiting, hnow] using advance_of_stageEnded s.sample he.1 rfl

/-- Each of the three stages ends in the response, the last one first. -/
theorem stageEnded_phaseEnds (g : Stage) (k : Nat) : PhaseEnds cfg env k (StageEnded g) := by
  have hleave := stageEnded_phaseEnds_of_next (g := .leave) fair norst nofun
  have htarget := stageEnded_phaseEnds_of_next (g := .target) fair norst fun _ h => Option.some.inj h ▸ hleave
  have henter := stageEnded_phaseEnds_of_next (g := .enter) fair norst fun _ h => Option.some.inj h ▸ htarget
  cases g with
  | enter => exact henter k
  | target => exact htarget k
  | leave => exact hleave k

/-- A request that the environment's first tick presents to an idle core is accepted (R192) and ends. -/
theorem request_phaseEnds (hv : (env 0).reqValid = true)
    (hl : legalRequest cfg.argsMax (env 0).reqCode (env 0).reqNargs = true) :
    PhaseEnds cfg env 0 fun t => t.state = .idle := by
  refine phaseEnds_of_step (fun s t hi hcfg hin h => ?_)
    (waiting_phaseEnds fair norst (stageEnded_phaseEnds fair norst .enter) 0)
  have haccept := step_of_request s hi (by rw [hin]; exact norst 0) (by rw [hin]; exact hv) (by rw [hin, hcfg]; exact hl)
  rw [haccept] at h
  injection h with h
  subst h
  refine .inr ⟨⟨nofun, rfl⟩, rfl, rfl, ?_⟩
  change s.input.now % 2 ^ cfg.clockW = _
  rw [hin, Nat.mod_mod, fair.sample]

end

/-! ## The wait under a still clock -/

/-- Waits without a byte before the deadline change no transaction register, and in the last of them as in all `req_ready`
and `rsp_valid` are 0 (R200, R244, R306). -/
theorem run_still_clock (env : Nat → TickInput) (n : Nat) (s : State) (hs : s.txn.state = .sent) (hrx : s.rx = [])
    (hin : s.inputs = (List.range (n + 1)).map env) (hw : ∀ k, k < n + 1 → IdleWait s.cfg s.txn.tSend (env k)) :
    ∃ t, run (n + 1) s = .next t ∧ t.txn = s.txn ∧ t.out.reqReady = false ∧ t.out.rspValid = false := by
  obtain ⟨t, hrun, hstill, hlater⟩ := run_idleWaits ((List.range n).map env) [env n] s hs hrx (by simp [hin, List.range_succ])
    fun w hmem => by
      obtain ⟨k, hk, rfl⟩ := List.mem_map.mp hmem
      exact hw k (Nat.lt_succ_of_lt (List.mem_range.mp hk))
  rw [List.length_map, List.length_range] at hrun
  have hsent : t.txn.state = .sent := by rw [hstill.txn, hs]
  obtain ⟨hstep, -, -⟩ := step_idleWait t (env n) [] hsent (hstill.rx.trans hrx) hlater
    (by rw [hstill.cfg, hstill.txn]; exact hw n (Nat.lt_succ_self n))
  refine ⟨t.sample, run_succ_of_step n s t _ hrun hstep, hstill.txn, ?_, rfl⟩
  simp [hsent]

/-- Settles O7: a fair clock reaches the deadline of each of the at most three waits, and a still one reaches none. -/
theorem everyRequestEnds : Obligations.EveryRequestEnds := by
  refine ⟨fun s env hs hi hfair norst hv hl => ?_, fun s env n hs hrx henv => ?_⟩
  · obtain ⟨time, fair⟩ := (fairClock_iff s.cfg env).mp hfair
    obtain ⟨m, hm⟩ := request_phaseEnds fair norst hv hl
    obtain ⟨n, t, hn, hrun, ⟨hrsp, hclear⟩, hbefore⟩ := hm m (Nat.le_refl m) (s.under env m)
      (framingInv_of_framing s _ rfl hs) rfl hi rfl
    exact ⟨m, n, t, by simpa using hn, hrun, hrsp, hclear, hbefore⟩
  · exact run_still_clock env n (s.under env (n + 1)) hs hrx rfl henv

end Sys2Proof.Machine
